-- ==== Sys2Proof/Word.lean ====
section
/-!
DEFINITION. The bit-vector widths the spec uses (00_scope.md section 5: "All values are unsigned bit-vectors").
-/

namespace Sys2Proof

/-- One byte of an instruction's encoding or of memory (R50, R70). -/
abbrev Byte := BitVec 8

/-- The 64-bit cell in which a control register (R12), a general register (R41) and the program counter (R42) are held. -/
abbrev Word := BitVec 64

end Sys2Proof
end

