-- ==== Sys2Proof/Config.lean ====
section
/-!
DEFINITION. What the spec takes as parameters (00_scope.md R4, 92_eei_decisions.md), the operating modes and processor
families it names, and the free values (00_scope.md section 6, `draw_N()`), which have no body.

A parameter that R4 calls open is a field of `Config`; `State` carries one, no step changes it, and a statement about
every state is thereby a statement about every configuration.
-/

namespace Sys2Proof

/-- The closed list of operating modes of 00_scope.md section 7 (decision D8). -/
inductive Mode where
  | real
  | prot32
  | v86
  | compat
  | long64
deriving DecidableEq, Repr, Inhabited

/-- The processor families the text distinguishes (R1, R4). -/
inductive Family where
  | intel386
  | intel486
  | pentium
  | p6
  | pentium4
  | xeon
deriving DecidableEq, Repr

/-- `UPPER32_POLICY` of R4 and R87: what the non-reserved bits among 63:32 of CR2 and CR3 hold after a 32-bit write. -/
inductive Upper32Policy where
  | draw
  | zero
deriving DecidableEq, Repr

/-- The implementation parameters of R4.  The two halves of `CR3_RSVD_MASK` that R34 leaves to a parameter are
`cr3RsvdHigh` (bits 63:52) and `cr3RsvdLow` (bits 11:0); bits 51:40 are fixed by R32 and bits 39:12 are the base (R30). -/
structure Config where
  family : Family
  upper32 : Upper32Policy
  /-- `CR0_RSVD_MASK` (R26). -/
  cr0RsvdMask : BitVec 32
  /-- The part of `CR3_RSVD_MASK` over bits 63:52 (R34). -/
  cr3RsvdHigh : BitVec 12
  /-- The part of `CR3_RSVD_MASK` over bits 11:0 (R34). -/
  cr3RsvdLow : BitVec 12
  /-- `CR3_PWT_BIT` (R31). -/
  cr3PwtBit : Nat
  /-- `CR3_PCD_BIT` (R31). -/
  cr3PcdBit : Nat
  /-- `CR4_RSVD_MASK` (R37). -/
  cr4RsvdMask : BitVec 32
  /-- `CR8_TPR_HI` (R38). -/
  tprHi : Nat
  /-- `CR8_TPR_LO` (R38). -/
  tprLo : Nat
  /-- `RESET_CR0` (R46). -/
  resetCr0 : Word
  /-- `RESET_CR2` (R46). -/
  resetCr2 : Word
  /-- `RESET_CR3` (R46). -/
  resetCr3 : Word
  /-- `RESET_CR4` (R46). -/
  resetCr4 : Word
  /-- `RESET_CR8` (R46). -/
  resetCr8 : Word
deriving DecidableEq, Repr

/-- The defaults of R4 and R46.  PRESUMED: the spec gives them "from general knowledge, not in source" (log entry 1). -/
def Config.default : Config where
  family := .pentium4
  upper32 := .draw
  cr0RsvdMask := 0x1FFAFFC0#32
  cr3RsvdHigh := 0xFFF#12
  cr3RsvdLow := 0xFE7#12
  cr3PwtBit := 3
  cr3PcdBit := 4
  cr4RsvdMask := 0xFFFF9800#32
  tprHi := 3
  tprLo := 0
  resetCr0 := 0x60000010#64
  resetCr2 := 0#64
  resetCr3 := 0#64
  resetCr4 := 0#64
  resetCr8 := 0#64

/-- `draw_1()`: the n-th free bit (R99).  No body: nothing can be proved of its value (log entry 2). -/
opaque Config.draw1 : Nat → Bool

/-- `draw_8()`: the n-th free byte (R87, bits 39:32 of CR3). -/
opaque Config.draw8 : Nat → BitVec 8

/-- `draw_32()`: the n-th free 32-bit value (R86, R87). -/
opaque Config.draw32 : Nat → BitVec 32

/-- The MODE and CPL the environment puts in force with a MOV to CR0 that leaves it a choice (60_exceptions.md R143; log entry
23).  No body. -/
opaque Config.drawMode : Nat → Mode × Fin 4

/-- `LINADDR_BITS` (R4): open, no default, read by no rule of the machine. -/
opaque Config.linAddrBits : Nat

/-- `PHYSADDR_BITS` (R4): open, no default, read by no rule of the machine. -/
opaque Config.physAddrBits : Nat

/-- The argument `access` of the environment relation `Translate` of R52, which the spec does not define (91_not_in_source.md N20).
DESIGN CHOICE (log entry 18): it tells read, write and fetch apart and nothing else, so that two accesses which differ only in
another right, such as being an implicit supervisor access, are one query. -/
inductive AccessKind where
  | read
  | write
  | fetch
deriving DecidableEq, Repr

/-- The arguments of the environment relation `Translate` of R52. -/
structure TranslateQuery where
  cr3 : Word
  paeEnabled : Bool
  mode : Mode
  wp : Bool
  cpl : Fin 4
  linear : Word
  access : AccessKind
deriving DecidableEq, Repr

/-- The two answers of `Translate` (R52). -/
inductive Translation where
  | physical (address : Word)
  | pageFault
deriving DecidableEq, Repr, Inhabited

/-- `Translate` of R52: an environment relation of which the spec gives no walk, format or page size.  No body; the number is the
index of the free value, so that answers to one query may differ over time (log entry 18). -/
opaque Config.translate : Nat → TranslateQuery → Translation

end Sys2Proof
end

