-- ==== Sys2Proof/Syntax.lean ====
section
/-!
DEFINITION. The instructions of spec/opcode_table.json: 32 rows, two directions times control-register numbers 0 to 15
(30_encoding.md R78).  Every instruction keeps, beside its general register, the bits of its encoding that the spec calls
ignored (R71, R73, R75), so that `encode` gives back the very bytes and `Form.len` the length of R77.
-/

namespace Sys2Proof

/-- A general-register number, `REX.B ++ ModRM.rm` (R72).  Names by number (R41): 0 RAX, 1 RCX, 2 RDX, 3 RBX, 4 RSP,
5 RBP, 6 RSI, 7 RDI, 8 to 15 R8 to R15. -/
abbrev Gpr := BitVec 4

/-- The legacy prefixes R75 lets stand before a MOV CRn, where they change nothing but its length. -/
inductive LegacyPrefix where
  | opSize
  | addrSize
  | es
  | cs
  | ss
  | ds
  | fs
  | gs
deriving DecidableEq, Repr

/-- The two REX bits R71 calls ignored. -/
structure RexBits where
  w : Bool
  x : Bool
deriving DecidableEq, Repr

/-- What an encoding holds beside its two operands: the legacy prefixes, whether a REX byte stands there, and the ignored
`ModRM.mod` (R70 to R73). -/
structure Form where
  prefixes : List LegacyPrefix
  rex : Option RexBits
  mod : BitVec 2
deriving DecidableEq, Repr

/-- The direction `opcode2` selects (R74). -/
inductive Dir where
  | read
  | write
deriving DecidableEq, Repr

/-- The instructions, one constructor per row of the opcode table. -/
inductive Instr where
  /-- MOV r, CR0 (R88). -/
  | movFromCr0 (f : Form) (r : Gpr)
  /-- MOV r, CR2 (R89). -/
  | movFromCr2 (f : Form) (r : Gpr)
  /-- MOV r, CR3 (R90). -/
  | movFromCr3 (f : Form) (r : Gpr)
  /-- MOV r, CR4 (R91). -/
  | movFromCr4 (f : Form) (r : Gpr)
  /-- MOV r, CR8 (R97). -/
  | movFromCr8 (f : Form) (r : Gpr)
  /-- MOV CR0, r (R92). -/
  | movToCr0 (f : Form) (r : Gpr)
  /-- MOV CR2, r (R93). -/
  | movToCr2 (f : Form) (r : Gpr)
  /-- MOV CR3, r (R94). -/
  | movToCr3 (f : Form) (r : Gpr)
  /-- MOV CR4, r (R95). -/
  | movToCr4 (f : Form) (r : Gpr)
  /-- MOV CR8, r (R96). -/
  | movToCr8 (f : Form) (r : Gpr)
  /-- MOV r, CR1 (reserved number) (R98). -/
  | movFromCr1 (f : Form) (r : Gpr)
  /-- MOV r, CR5 (reserved number) (R98). -/
  | movFromCr5 (f : Form) (r : Gpr)
  /-- MOV r, CR6 (reserved number) (R98). -/
  | movFromCr6 (f : Form) (r : Gpr)
  /-- MOV r, CR7 (reserved number) (R98). -/
  | movFromCr7 (f : Form) (r : Gpr)
  /-- MOV r, CR9 (reserved number) (R98). -/
  | movFromCr9 (f : Form) (r : Gpr)
  /-- MOV r, CR10 (reserved number) (R98). -/
  | movFromCr10 (f : Form) (r : Gpr)
  /-- MOV r, CR11 (reserved number) (R98). -/
  | movFromCr11 (f : Form) (r : Gpr)
  /-- MOV r, CR12 (reserved number) (R98). -/
  | movFromCr12 (f : Form) (r : Gpr)
  /-- MOV r, CR13 (reserved number) (R98). -/
  | movFromCr13 (f : Form) (r : Gpr)
  /-- MOV r, CR14 (reserved number) (R98). -/
  | movFromCr14 (f : Form) (r : Gpr)
  /-- MOV r, CR15 (reserved number) (R98). -/
  | movFromCr15 (f : Form) (r : Gpr)
  /-- MOV CR1, r (reserved number) (R98). -/
  | movToCr1 (f : Form) (r : Gpr)
  /-- MOV CR5, r (reserved number) (R98). -/
  | movToCr5 (f : Form) (r : Gpr)
  /-- MOV CR6, r (reserved number) (R98). -/
  | movToCr6 (f : Form) (r : Gpr)
  /-- MOV CR7, r (reserved number) (R98). -/
  | movToCr7 (f : Form) (r : Gpr)
  /-- MOV CR9, r (reserved number) (R98). -/
  | movToCr9 (f : Form) (r : Gpr)
  /-- MOV CR10, r (reserved number) (R98). -/
  | movToCr10 (f : Form) (r : Gpr)
  /-- MOV CR11, r (reserved number) (R98). -/
  | movToCr11 (f : Form) (r : Gpr)
  /-- MOV CR12, r (reserved number) (R98). -/
  | movToCr12 (f : Form) (r : Gpr)
  /-- MOV CR13, r (reserved number) (R98). -/
  | movToCr13 (f : Form) (r : Gpr)
  /-- MOV CR14, r (reserved number) (R98). -/
  | movToCr14 (f : Form) (r : Gpr)
  /-- MOV CR15, r (reserved number) (R98). -/
  | movToCr15 (f : Form) (r : Gpr)
deriving DecidableEq, Repr

end Sys2Proof
end

