-- ==== Sys2Proof/WellFormed.lean ====
section
/-!
DEFINITION. The checks on an instruction: what can be encoded in a given mode (30_encoding.md R72, R75, R77, R80).
-/

namespace Sys2Proof

/-- The fields an instruction is made of: direction, control-register number, form, general register. -/
def Instr.fields : Instr → Dir × BitVec 4 × Form × Gpr
  | .movFromCr0 f r => (.read, 0#4, f, r)
  | .movFromCr2 f r => (.read, 2#4, f, r)
  | .movFromCr3 f r => (.read, 3#4, f, r)
  | .movFromCr4 f r => (.read, 4#4, f, r)
  | .movFromCr8 f r => (.read, 8#4, f, r)
  | .movToCr0 f r => (.write, 0#4, f, r)
  | .movToCr2 f r => (.write, 2#4, f, r)
  | .movToCr3 f r => (.write, 3#4, f, r)
  | .movToCr4 f r => (.write, 4#4, f, r)
  | .movToCr8 f r => (.write, 8#4, f, r)
  | .movFromCr1 f r => (.read, 1#4, f, r)
  | .movFromCr5 f r => (.read, 5#4, f, r)
  | .movFromCr6 f r => (.read, 6#4, f, r)
  | .movFromCr7 f r => (.read, 7#4, f, r)
  | .movFromCr9 f r => (.read, 9#4, f, r)
  | .movFromCr10 f r => (.read, 10#4, f, r)
  | .movFromCr11 f r => (.read, 11#4, f, r)
  | .movFromCr12 f r => (.read, 12#4, f, r)
  | .movFromCr13 f r => (.read, 13#4, f, r)
  | .movFromCr14 f r => (.read, 14#4, f, r)
  | .movFromCr15 f r => (.read, 15#4, f, r)
  | .movToCr1 f r => (.write, 1#4, f, r)
  | .movToCr5 f r => (.write, 5#4, f, r)
  | .movToCr6 f r => (.write, 6#4, f, r)
  | .movToCr7 f r => (.write, 7#4, f, r)
  | .movToCr9 f r => (.write, 9#4, f, r)
  | .movToCr10 f r => (.write, 10#4, f, r)
  | .movToCr11 f r => (.write, 11#4, f, r)
  | .movToCr12 f r => (.write, 12#4, f, r)
  | .movToCr13 f r => (.write, 13#4, f, r)
  | .movToCr14 f r => (.write, 14#4, f, r)
  | .movToCr15 f r => (.write, 15#4, f, r)

/-- The direction of the move (R74). -/
def Instr.dir (i : Instr) : Dir := i.fields.1

/-- The control-register number `n` (R72). -/
def Instr.crNum (i : Instr) : BitVec 4 := i.fields.2.1

/-- The form the instruction was written in. -/
def Instr.form (i : Instr) : Form := i.fields.2.2.1

/-- The general-register number `i` (R72). -/
def Instr.gpr (i : Instr) : Gpr := i.fields.2.2.2

/-- "the model refuses more than 4 legacy prefixes" (R77). -/
def maxPrefixes : Nat := 4

/-- No more legacy prefixes than R77 allows. -/
def Form.prefixesOk (f : Form) : Bool := decide (f.prefixes.length ≤ maxPrefixes)

/-- A REX byte exists only in 64-bit mode (R70, R72). -/
def Form.rexOk (m : Mode) (f : Form) : Bool := f.rex.isNone || m == .long64

/-- Without a REX byte both operand numbers are 0 to 7 (R72). -/
def Form.numberOk (f : Form) (n : BitVec 4) : Bool := f.rex.isSome || decide (n < 8#4)

/-- The instruction has an encoding in mode `m`. -/
def Instr.wellFormed (m : Mode) (i : Instr) : Bool :=
  i.form.prefixesOk && i.form.rexOk m && i.form.numberOk i.crNum && i.form.numberOk i.gpr

end Sys2Proof
end

