-- ==== Sys2Proof/Decode.lean ====
section
/-!
DEFINITION. Decoding and encoding of the MOV CRn instructions (30_encoding.md R70 to R80): a total decoder that rejects by
name, the encoder, and `decodeTableWord`.
-/

namespace Sys2Proof

/-- Why bytes are no instruction of R78; each reason but `truncated` is a refusal the spec names or asks for. -/
inductive DecodeError where
  /-- The bytes end inside an instruction. -/
  | truncated
  /-- `refuse(not_a_mov_crn)` (R158). -/
  | notAMovCrn
  /-- `refuse(lock_prefix_on_mov_crn)` (R75). -/
  | lockPrefix
  /-- `refuse(repeat_prefix_on_mov_crn)` (R75). -/
  | repeatPrefix
  /-- More than 4 legacy prefixes (R77). -/
  | tooManyPrefixes
deriving DecidableEq, Repr

/-- A one-byte legacy prefix: one that is ignored, LOCK, or a repeat prefix (R75). -/
inductive PrefixByte where
  | ignored (p : LegacyPrefix)
  | lock
  | repeated
deriving DecidableEq, Repr

/-- The prefix bytes of R75. -/
def PrefixByte.ofByte (b : Byte) : Option PrefixByte :=
  match b.toNat with
  | 0x66 => some (.ignored .opSize)
  | 0x67 => some (.ignored .addrSize)
  | 0x26 => some (.ignored .es)
  | 0x2E => some (.ignored .cs)
  | 0x36 => some (.ignored .ss)
  | 0x3E => some (.ignored .ds)
  | 0x64 => some (.ignored .fs)
  | 0x65 => some (.ignored .gs)
  | 0xF0 => some .lock
  | 0xF2 => some .repeated
  | 0xF3 => some .repeated
  | _ => none

/-- The byte of each ignored legacy prefix (R75). -/
def LegacyPrefix.byte : LegacyPrefix → Byte
  | .opSize => 0x66#8
  | .addrSize => 0x67#8
  | .es => 0x26#8
  | .cs => 0x2E#8
  | .ss => 0x36#8
  | .ds => 0x3E#8
  | .fs => 0x64#8
  | .gs => 0x65#8

/-- The leading prefix bytes and what follows them (R77: "consuming legacy prefix bytes"). -/
def takePrefixes : List Byte → List PrefixByte × List Byte
  | [] => ([], [])
  | b :: bs =>
    match PrefixByte.ofByte b with
    | some p => (p :: (takePrefixes bs).1, (takePrefixes bs).2)
    | none => ([], b :: bs)

/-- The ignored prefixes among the prefix bytes, in order. -/
def ignoredOnly : List PrefixByte → List LegacyPrefix
  | [] => []
  | .ignored p :: ps => p :: ignoredOnly ps
  | .lock :: ps => ignoredOnly ps
  | .repeated :: ps => ignoredOnly ps

/-- `REX` is a byte whose bits 7:4 are 0100 (R70). -/
def isRex (b : Byte) : Bool := b.extractLsb' 4 4 == 4#4

/-- At most one REX byte, and only in 64-bit mode (R70, R72, R77). -/
def takeRex (m : Mode) : List Byte → Option Byte × List Byte
  | [] => (none, [])
  | b :: bs => if m = .long64 ∧ isRex b = true then (some b, bs) else (none, b :: bs)

/-- The direction `opcode2` selects (R71, R74). -/
def Dir.ofOpcode2 (b : Byte) : Option Dir :=
  match b.toNat with
  | 0x20 => some .read
  | 0x22 => some .write
  | _ => none

/-- `opcode2` of each direction (R71, R74). -/
def Dir.opcode2 : Dir → Byte
  | .read => 0x20#8
  | .write => 0x22#8

/-- The three fixed bytes `0x0F opcode2 ModRM` (R70): direction, ModRM and the bytes after them.  No byte of ModRM asks
for a further byte (R73). -/
def takeOpcode : List Byte → Except DecodeError (Dir × Byte × List Byte)
  | [] => .error .truncated
  | escape :: bs =>
    if escape = 0x0F#8 then
      match bs with
      | [] => .error .truncated
      | opcode2 :: bs =>
        match Dir.ofOpcode2 opcode2 with
        | none => .error .notAMovCrn
        | some d =>
          match bs with
          | [] => .error .truncated
          | modrm :: rest => .ok (d, modrm, rest)
    else .error .notAMovCrn

/-- The two ignored bits of a REX byte, `W` bit 3 and `X` bit 1 (R71). -/
def RexBits.ofByte (b : Byte) : RexBits := { w := b.getLsbD 3, x := b.getLsbD 1 }

/-- `REX.R`, bit 2, taken as 0 when there is no REX byte (R71, R72). -/
def rexR (rex : Option Byte) : Bool := (rex.map fun b => b.getLsbD 2).getD false

/-- `REX.B`, bit 0, taken as 0 when there is no REX byte (R71, R72). -/
def rexB (rex : Option Byte) : Bool := (rex.map fun b => b.getLsbD 0).getD false

/-- Four bits of an operand number: a REX bit over three bits of ModRM (R72). -/
def joinNumber (high : Bool) (low : BitVec 3) : BitVec 4 := BitVec.ofBool high ++ low

/-- The control-register number `n = REX.R ++ ModRM.reg` (R72). -/
def crNumber (rex : Option Byte) (modrm : Byte) : BitVec 4 := joinNumber (rexR rex) (modrm.extractLsb' 3 3)

/-- The general-register number `i = REX.B ++ ModRM.rm` (R72). -/
def gprNumber (rex : Option Byte) (modrm : Byte) : Gpr := joinNumber (rexB rex) (modrm.extractLsb' 0 3)

/-- The instruction with the given fields: the rows of R78. -/
def Instr.ofFields (d : Dir) (n : BitVec 4) (f : Form) (r : Gpr) : Instr :=
  match d, n.toNat with
  | .read, 0 => .movFromCr0 f r
  | .read, 1 => .movFromCr1 f r
  | .read, 2 => .movFromCr2 f r
  | .read, 3 => .movFromCr3 f r
  | .read, 4 => .movFromCr4 f r
  | .read, 5 => .movFromCr5 f r
  | .read, 6 => .movFromCr6 f r
  | .read, 7 => .movFromCr7 f r
  | .read, 8 => .movFromCr8 f r
  | .read, 9 => .movFromCr9 f r
  | .read, 10 => .movFromCr10 f r
  | .read, 11 => .movFromCr11 f r
  | .read, 12 => .movFromCr12 f r
  | .read, 13 => .movFromCr13 f r
  | .read, 14 => .movFromCr14 f r
  | .read, _ => .movFromCr15 f r
  | .write, 0 => .movToCr0 f r
  | .write, 1 => .movToCr1 f r
  | .write, 2 => .movToCr2 f r
  | .write, 3 => .movToCr3 f r
  | .write, 4 => .movToCr4 f r
  | .write, 5 => .movToCr5 f r
  | .write, 6 => .movToCr6 f r
  | .write, 7 => .movToCr7 f r
  | .write, 8 => .movToCr8 f r
  | .write, 9 => .movToCr9 f r
  | .write, 10 => .movToCr10 f r
  | .write, 11 => .movToCr11 f r
  | .write, 12 => .movToCr12 f r
  | .write, 13 => .movToCr13 f r
  | .write, 14 => .movToCr14 f r
  | .write, _ => .movToCr15 f r

/-- Decoding in mode `m` (R70 to R80): the instruction the bytes begin with and the bytes after it, or the reason there is
none.  DESIGN CHOICE (log entry 8): where both a LOCK and a repeat prefix stand, LOCK is named, and every refusal of the decoder comes
before that of a reserved control-register number (R98), so that `F0 0F 20 C8` is refused for its LOCK prefix. -/
def decode (m : Mode) (bs : List Byte) : Except DecodeError (Instr × List Byte) :=
  let ps := (takePrefixes bs).1
  let rex := (takeRex m (takePrefixes bs).2).1
  if ps.length ≤ maxPrefixes then
    match takeOpcode (takeRex m (takePrefixes bs).2).2 with
    | .error e => .error e
    | .ok (d, modrm, rest) =>
      if ps.contains .lock then .error .lockPrefix
      else if ps.contains .repeated then .error .repeatPrefix
      else
        .ok (Instr.ofFields d (crNumber rex modrm)
          { prefixes := ignoredOnly ps, rex := rex.map RexBits.ofByte, mod := modrm.extractLsb' 6 2 }
          (gprNumber rex modrm), rest)
  else .error .tooManyPrefixes

/-- The length in bytes: prefixes, the REX byte if there is one, and the three fixed bytes (R77). -/
def Form.len (f : Form) : Nat := f.prefixes.length + (if f.rex.isSome then 1 else 0) + 3

/-- The REX byte `0100WRXB` (R70, R71). -/
def rexByte (rb : RexBits) (r b : Bool) : Byte :=
  4#4 ++ BitVec.ofBool rb.w ++ BitVec.ofBool r ++ BitVec.ofBool rb.x ++ BitVec.ofBool b

/-- The ModRM byte `mod reg rm` (R71). -/
def modrmByte (mod : BitVec 2) (n : BitVec 4) (r : Gpr) : Byte := mod ++ n.extractLsb' 0 3 ++ r.extractLsb' 0 3

/-- The REX byte of an encoding, if it has one. -/
def rexBytes (f : Form) (n : BitVec 4) (r : Gpr) : List Byte :=
  match f.rex with
  | none => []
  | some rb => [rexByte rb (n.getLsbD 3) (r.getLsbD 3)]

/-- The bytes of an instruction at ascending addresses (R70). -/
def encode (i : Instr) : List Byte :=
  i.form.prefixes.map LegacyPrefix.byte ++ rexBytes i.form i.crNum i.gpr ++
    [0x0F#8, i.dir.opcode2, modrmByte i.form.mod i.crNum i.gpr]

/-- The longest instruction: four prefixes, a REX byte and the three fixed bytes (R77). -/
def maxInstrLen : Nat := 8

/-- The bytes of a word of the opcode table, first byte most significant: R78 takes match and mask "over the 24-bit string
`opcode1 ++ opcode2 ++ ModRM` (opcode1 most significant)". -/
def tableBytes : Nat → Nat → List Byte
  | 0, _ => []
  | n + 1, w => tableBytes n (w / 256) ++ [BitVec.ofNat 8 w]

/-- The bytes of a table word, followed by zero bytes up to the longest instruction. -/
def tableWordBytes (nbits w : Nat) : List Byte :=
  tableBytes (nbits / 8) w ++ List.replicate (maxInstrLen - nbits / 8) 0#8

/-- The instruction the decoder reads from a word of the opcode table (64-bit mode, where every row is encodable). -/
def decodeTableWord (nbits w : Nat) : Option Instr :=
  match decode .long64 (tableWordBytes nbits w) with
  | .ok (i, _) => some i
  | .error _ => none

end Sys2Proof
end

