-- ==== Sys2Proof/Machine/State.lean ====
section
/-!
DEFINITION. The state of the machine (10_state.md), the environment's steps that wait for their turn
(41_processor_events.md R115), the reasons a step can stop, and the state after reset (10_state.md R46).
-/

namespace Sys2Proof.Machine

/-- The five control registers that hold state, each one 64-bit value in every mode (R10, R12).  CR1 holds none (R27). -/
structure CtrlRegs where
  cr0 : Word
  cr2 : Word
  cr3 : Word
  cr4 : Word
  cr8 : Word
deriving DecidableEq, Repr

/-- The six status flags of R43. -/
structure StatusFlags where
  of : Bool
  sf : Bool
  zf : Bool
  af : Bool
  pf : Bool
  cf : Bool
deriving DecidableEq, Repr

/-- What the processor holds of the last unmasked x87 FPU error it reported (R138). -/
inductive X87Report where
  /-- No error reported. -/
  | none
  /-- Reported by "the native (internal) mechanism" (CR0.NE set). -/
  | native
  /-- FERR# asserted; execution stops "immediately before executing the next waiting floating-point instruction or
  WAIT/FWAIT instruction" (none is in scope, R3). -/
  | stopAtNextWaiting
deriving DecidableEq, Repr

/-- The environment events of R115, and the changes of the environment inputs of R4 and R44. -/
inductive Event where
  /-- A page fault whose faulting linear address is `la` (R110). -/
  | pageFault (la : Word)
  /-- A task switch; `w` is the value the environment supplies for CR3 (R112). -/
  | taskSwitch (w : Word)
  /-- An external interrupt of the given priority class asks to interrupt the processor (R137). -/
  | externalInterrupt (cls : BitVec 4)
  /-- An x87 FPU error, masked or unmasked (R138). -/
  | x87Error (unmasked : Bool)
  /-- The IGNNE# input changes (R115, R138). -/
  | setIgnne (asserted : Bool)
  /-- The environment changes `MODE` and `CPL` (R115, R141, R143). -/
  | setModeCpl (m : Mode) (cpl : Fin 4)
  /-- The environment settles the MODE and CPL it wants at the next MOV to CR0 that changes PE or PG (R92, R143). -/
  | setModeInput (p : Option (Mode × Fin 4))
  /-- The environment changes EFLAGS.AC (R43, R44). -/
  | setAc (b : Bool)
  /-- The environment changes `PAE_ENABLED` (R4). -/
  | setPaeEnabled (b : Bool)
  /-- The environment changes `IA32E_ACTIVATION_OK` (R4). -/
  | setActivationOk (b : Bool)
deriving DecidableEq, Repr

/-- One entry of the environment's schedule: an event, or leave to run one instruction. -/
inductive EnvStep where
  | event (e : Event)
  | instr
deriving DecidableEq, Repr

/-- The machine.  `env`, `modeInput`, `admitted`, `draws` and `cfg` are the model's own fields (INVENTORY.md, State). -/
structure State where
  /-- CR0, CR2, CR3, CR4, CR8 (R12). -/
  cr : CtrlRegs
  /-- The general registers `x[0]` to `x[15]` (R41). -/
  gpr : Vector Word 16
  /-- The address of the instruction being executed, a linear address (R42). -/
  pc : Word
  /-- OF, SF, ZF, AF, PF, CF (R43). -/
  flags : StatusFlags
  /-- EFLAGS.AC (R43). -/
  ac : Bool
  /-- `MODE` (R4, R142). -/
  mode : Mode
  /-- `CPL` (R4, R140). -/
  cpl : Fin 4
  /-- `IA32E_ACTIVATION_OK` (R4). -/
  activationOk : Bool
  /-- `PAE_ENABLED` (R4, R33). -/
  paeEnabled : Bool
  /-- The IGNNE# input pin, true when asserted (R138). -/
  ignne : Bool
  /-- The FERR# output pin, true when asserted (R138). -/
  ferr : Bool
  /-- The reported x87 FPU error (R138). -/
  x87 : X87Report
  /-- Memory by linear address (R50, R68), in canonical form (`Memory.wf`). -/
  mem : List Host.Cell
  /-- MODEL's own: what the environment does next, oldest first; empty means instructions run (R115, R158). -/
  env : List EnvStep
  /-- MODEL's own: the MODE and CPL the environment wants at the next MOV to CR0 that changes PE or PG; `none` where it wants no
  other than those in force (R4, R92, R143; log entry 23). -/
  modeInput : Option (Mode × Fin 4)
  /-- MODEL's own: the class of the last external interrupt the TPR filter let through (R137). -/
  admitted : Option (BitVec 4)
  /-- MODEL's own: the index of the next free value (00_scope.md section 6, `draw_N()`). -/
  draws : Nat
  /-- MODEL's own: the implementation's parameters, which no step changes (R4). -/
  cfg : Config
deriving DecidableEq, Repr

/-- The faults: what stops the machine. -/
inductive Fault where
  /-- `raise #GP(e)`: raised by a MOV CRn that the spec makes fault (R121, R133); no state changes and pc stays at the
  instruction.  Safe: the spec describes no delivery (R134, D12), so the run ends. -/
  | generalProtection (errorCode : Nat)
  /-- Raised by the instruction fetch at an address whose byte nothing has written.  Safe: the spec gives memory no
  contents (log entry 6), so the run ends where hardware would read some byte. -/
  | fetchOfUnwrittenByte (address : Nat)
deriving DecidableEq, Repr

/-- The refusals: the cases to which the spec gives no meaning (`refuse(reason)`, 00_scope.md section 6).  Each is safe: the
model stops where hardware does something the spec does not say. -/
inductive Refusal where
  /-- Raised by the dispatch for an instruction that has no meaning yet; safe.  No arm raises it now. -/
  | notModelled (mnemonic : String)
  /-- `refuse(reserved_control_register n)`: raised by the MOVs to and from CR1, CR5 to CR7, CR9 to CR15 (R98); safe. -/
  | reservedControlRegister (n : Nat)
  /-- `refuse(cr0_nw_without_cd)`: raised by MOV CR0 (R92 (c)); safe. -/
  | cr0NwWithoutCd
  /-- `refuse(cr0_pg_cleared_in_64bit_mode)`: raised by MOV CR0 (R92 (d)); safe. -/
  | cr0PgClearedIn64BitMode
  /-- `refuse(cr0_paging_enable_conditions)`: raised by MOV CR0 (R92 (e)); safe. -/
  | cr0PagingEnableConditions
  /-- `refuse(cr0_reserved_bits_changed)`: raised by MOV CR0 (R92 (f)); safe. -/
  | cr0ReservedBitsChanged
  /-- `refuse(cr3_reserved_51_40_nonzero)`: raised by MOV CR3 (R94 (a)); safe. -/
  | cr3Reserved51To40Nonzero
  /-- `refuse(cr3_reserved_bits_changed)`: raised by MOV CR3 (R94 (b)); safe. -/
  | cr3ReservedBitsChanged
  /-- `refuse(cr4_reserved_bits_changed)`: raised by MOV CR4 (R95 (b)); safe. -/
  | cr4ReservedBitsChanged
  /-- `refuse(cr4_pae_changed_in_ia32e)`: raised by MOV CR4 (R95 (c)); safe. -/
  | cr4PaeChangedInIa32e
  /-- `refuse(cr8_reserved_bits_nonzero)`: raised by MOV CR8 (R96 (a)); safe. -/
  | cr8ReservedBitsNonzero
  /-- `refuse(lock_prefix_on_mov_crn)`: raised by the decoder (R75, D18); safe. -/
  | lockPrefixOnMovCrn
  /-- `refuse(repeat_prefix_on_mov_crn)`: raised by the decoder (R75, D18); safe. -/
  | repeatPrefixOnMovCrn
  /-- More than 4 legacy prefixes: raised by the decoder (R77); safe. -/
  | tooManyPrefixes
  /-- `refuse(not_a_mov_crn)`: raised by the decoder for every other byte sequence (R80, R158, D26); safe. -/
  | notAMovCrn
  /-- `pc + len` overflows the width in force: raised by the completion of every MOV CRn and by the fetch (R42, D3); safe. -/
  | pcOverflow
  /-- The environment's schedule holds an event whose `requires` does not hold (R110, R112, R141, R143): raised by the
  step that meets it; safe, since no such event can occur. -/
  | eventNotEnabled
deriving DecidableEq, Repr

/-- The outcome of a step of this machine (70_reset_and_hazards.md R158). -/
abbrev Outcome := Host.Outcome State Fault Refusal

/-- The machine after reset, for given parameters (R46): the control registers at `RESET_CRn`; `MODE` real, `CPL` 0 and the
pc 0xFFFFFFF0 from the family (PRESUMED, R46, R150; log entries 1 and 5); everything else at the values of log entry 5. -/
def State.resetWith (c : Config) : State where
  cr := { cr0 := c.resetCr0, cr2 := c.resetCr2, cr3 := c.resetCr3, cr4 := c.resetCr4, cr8 := c.resetCr8 }
  gpr := Vector.replicate 16 0#64
  pc := 0xFFFFFFF0#64
  flags := { of := false, sf := false, zf := false, af := false, pf := false, cf := false }
  ac := false
  mode := .real
  cpl := 0
  activationOk := true
  paeEnabled := false
  ignne := false
  ferr := false
  x87 := .none
  mem := []
  env := []
  modeInput := none
  admitted := none
  draws := 0
  cfg := c

/-- The machine right after reset, with the default parameters of R4 and R46. -/
def State.reset : State := State.resetWith Config.default

end Sys2Proof.Machine
end

