-- ==== Sys2Proof/Machine/Flags.lean ====
section
/-!
DEFINITION. The status flags (10_state.md R43): the only rule that writes them is the completion R99, which leaves each of
the six a free value; AC is environment state and no instruction changes it.
-/

namespace Sys2Proof.Machine

/-- "OF, SF, ZF, AF, PF, CF <- draw_1() each" (R99): six fresh free bits, the n-th onwards. -/
def StatusFlags.drawn (n : Nat) : StatusFlags where
  of := Config.draw1 n
  sf := Config.draw1 (n + 1)
  zf := Config.draw1 (n + 2)
  af := Config.draw1 (n + 3)
  pf := Config.draw1 (n + 4)
  cf := Config.draw1 (n + 5)

/-- The state with six fresh status flags and the draws counted. -/
def State.drawFlags (s : State) : State :=
  { s with flags := StatusFlags.drawn s.draws, draws := s.draws + 6 }

end Sys2Proof.Machine
end

