-- ==== Sys2Proof/Machine/Ops.lean ====
section
/-!
DEFINITION. The named operations over registers, the program counter and memory, raising an exception (60_exceptions.md
R133) and the completion every MOV CRn shares (40_mov_crn.md R99).
-/

namespace Sys2Proof.Machine

/-- `v[63:32]`. -/
def upper32 (v : Word) : BitVec 32 := v.extractLsb' 32 32

/-- `v[31:0]`. -/
def lower32 (v : Word) : BitVec 32 := v.extractLsb' 0 32

/-- `hi ++ lo`, the 64-bit value with the given halves (00_scope.md section 5). -/
def join32 (hi lo : BitVec 32) : Word := hi ++ lo

/-- `v` with bit `i` replaced by 1 (R92 (g), R112). -/
def setBit (v : Word) (i : Nat) : Word := v ||| (1#64 <<< i)

/-- `CRW(MODE)`: 64 in 64-bit mode, 32 in every other mode (R11). -/
def crWidth (m : Mode) : Nat := if m = .long64 then 64 else 32

/-- `IA32e(MODE)`: compatibility or 64-bit mode (00_scope.md section 7). -/
def isIa32e (m : Mode) : Bool := m == .compat || m == .long64

/-! ### General registers -/

/-- `x[i]` (R41). -/
def State.getGpr (s : State) (r : Gpr) : Word := s.gpr[r.toNat]'(r.isLt)

/-- `x[i] <- v` (R41). -/
def State.setGpr (s : State) (r : Gpr) (v : Word) : State := { s with gpr := s.gpr.set r.toNat v r.isLt }

/-! ### Control registers -/

/-- `CR[0] <- v`. -/
def State.setCr0 (s : State) (v : Word) : State := { s with cr := { s.cr with cr0 := v } }

/-- `CR[2] <- v`. -/
def State.setCr2 (s : State) (v : Word) : State := { s with cr := { s.cr with cr2 := v } }

/-- `CR[3] <- v`. -/
def State.setCr3 (s : State) (v : Word) : State := { s with cr := { s.cr with cr3 := v } }

/-- `CR[4] <- v`. -/
def State.setCr4 (s : State) (v : Word) : State := { s with cr := { s.cr with cr4 := v } }

/-- `CR[8] <- v`. -/
def State.setCr8 (s : State) (v : Word) : State := { s with cr := { s.cr with cr8 := v } }

/-- The state with `n` free values used up. -/
def State.countDraws (s : State) (n : Nat) : State := { s with draws := s.draws + n }

/-! ### Memory (R50, R60, R61) -/

/-- The byte at an address; `none` where nothing has been written (log entry 6). -/
def Memory.read1 : List Host.Cell → Nat → Option Byte
  | [], _ => none
  | (k, v) :: m, a => if k = a then some v else Memory.read1 m a

/-- Memory with one byte stored, the addresses kept strictly rising. -/
def Memory.insert : List Host.Cell → Nat → Byte → List Host.Cell
  | [], a, b => [(a, b)]
  | (k, v) :: m, a, b =>
    if a < k then (a, b) :: (k, v) :: m
    else if a = k then (a, b) :: m
    else (k, v) :: Memory.insert m a b

/-- Memory with one byte stored at an address of the 64-bit space; there is no address beyond it (R42, R50). -/
def Memory.write1 (m : List Host.Cell) (a : Nat) (b : Byte) : List Host.Cell :=
  if a < 2 ^ 64 then Memory.insert m a b else m

/-- Memory with bytes stored at ascending addresses. -/
def Memory.writeBytes (m : List Host.Cell) (a : Nat) : List Byte → List Host.Cell
  | [] => m
  | b :: bs => Memory.writeBytes (Memory.write1 m a b) (a + 1) bs

/-- The addresses are strictly rising from `lo` on and lie in the 64-bit space. -/
def Memory.wfFrom : Nat → List Host.Cell → Bool
  | _, [] => true
  | lo, (k, _) :: m => decide (lo ≤ k) && decide (k < 2 ^ 64) && Memory.wfFrom (k + 1) m

/-- The canonical form: addresses strictly rising.  An unlisted address reads as no value, so no entry can equal it. -/
def Memory.wf (m : List Host.Cell) : Bool := Memory.wfFrom 0 m

/-- `MemRead(addr, n)`, little-endian: the byte at the lowest address holds bits 7:0 (R61, D5); `none` where a byte has not
been written.  No instruction in scope uses it (R60). -/
def memRead (m : List Host.Cell) (a : Nat) : Nat → Option Nat
  | 0 => some 0
  | n + 1 =>
    match Memory.read1 m a, memRead m (a + 1) n with
    | some b, some v => some (b.toNat + 256 * v)
    | _, _ => none

/-- The `n` low bytes of a value, least significant first (R61). -/
def littleEndian (v : Nat) : Nat → List Byte
  | 0 => []
  | n + 1 => BitVec.ofNat 8 v :: littleEndian (v / 256) n

/-- `MemWrite(addr, n, v)`, little-endian (R61, D5).  No instruction in scope uses it (R60). -/
def memWrite (m : List Host.Cell) (a n v : Nat) : List Host.Cell := Memory.writeBytes m a (littleEndian v n)

/-! ### The program counter (R42) -/

/-- The size of the address space the program counter moves in: 64-bit, or 32-bit when `MODE != Long64`. -/
def pcLimit (m : Mode) : Nat := if m = .long64 then 2 ^ 64 else 2 ^ 32

/-- The instruction's address: `pc`, or its low 32 bits (EIP) when `MODE != Long64` (R42). -/
def State.ip (s : State) : Nat := if s.mode = .long64 then s.pc.toNat else (lower32 s.pc).toNat

/-- `pc + len` does not overflow the width in force (R42, D3). -/
def State.pcFits (s : State) (len : Nat) : Bool := decide (s.ip + len < pcLimit s.mode)

/-- `pc + len` (R99), given that it fits. -/
def State.nextPc (s : State) (len : Nat) : Word := BitVec.ofNat 64 (s.ip + len)

/-! ### Exceptions and completion -/

/-- TAKING AN EXCEPTION.  `raise #GP(e)` ends the step with the outcome `Fault(#GP, e)`: no state changes and pc keeps the
address of the instruction (R133).  The spec describes no entry to a handler, no saved state and no return (R134, R135,
D12), so there is nothing further to take and no return operation. -/
def raiseGp (errorCode : Nat) : Outcome := .fault (.generalProtection errorCode)

/-- The privilege check of R85 step 2: "if MODE != Real and CPL != 0 then raise #GP(0)". -/
def State.privileged (s : State) : Bool := s.mode == .real || s.cpl == 0

/-- The rest of an instruction, behind the privilege check. -/
def State.checkPrivilege (s : State) (rest : Outcome) : Outcome := if s.privileged then rest else raiseGp 0

/-- Completion (R99): pc advances by `len` and the six status flags are free; a step whose `pc + len` overflows is refused
(R42).  `p` is the MODE and CPL the environment puts in force with this very step (R143), `none` where it puts none; `pc` moves in
the mode the instruction ran in. -/
def State.complete (s : State) (len : Nat) (p : Option (Mode × Fin 4)) : Outcome :=
  if s.pcFits len then
    .next { s.drawFlags with
      pc := s.nextPc len
      mode := (p.getD (s.mode, s.cpl)).1
      cpl := (p.getD (s.mode, s.cpl)).2
      modeInput := if p.isSome then none else s.modeInput }
  else .refused .pcOverflow

end Sys2Proof.Machine
end

