-- ==== Sys2Proof/Machine/Operands.lean ====
section
/-!
DEFINITION. The fields of the control registers (10_state.md), the reserved-bit masks (00_scope.md R4) and the two operand
forms of MOV CRn: the width of a read (40_mov_crn.md R86) and of a write (R87).
-/

namespace Sys2Proof.Machine

/-! ### The fields of CR0 (R14) -/

/-- PE, bit 0 (R15). -/
def cr0Pe (v : Word) : Bool := v.getLsbD 0
/-- MP, bit 1 (R16). -/
def cr0Mp (v : Word) : Bool := v.getLsbD 1
/-- EM, bit 2 (R16). -/
def cr0Em (v : Word) : Bool := v.getLsbD 2
/-- TS, bit 3 (R17). -/
def cr0Ts (v : Word) : Bool := v.getLsbD 3
/-- ET, bit 4 (R18). -/
def cr0Et (v : Word) : Bool := v.getLsbD 4
/-- NE, bit 5 (R19). -/
def cr0Ne (v : Word) : Bool := v.getLsbD 5
/-- WP, bit 16 (R20). -/
def cr0Wp (v : Word) : Bool := v.getLsbD 16
/-- AM, bit 18 (R21). -/
def cr0Am (v : Word) : Bool := v.getLsbD 18
/-- NW, bit 29 (R22). -/
def cr0Nw (v : Word) : Bool := v.getLsbD 29
/-- CD, bit 30 (R23). -/
def cr0Cd (v : Word) : Bool := v.getLsbD 30
/-- PG, bit 31 (R24). -/
def cr0Pg (v : Word) : Bool := v.getLsbD 31

/-- ET "is hardcoded to 1" in the Pentium 4, Intel Xeon and P6 families (R18). -/
def etHardwired : Family → Bool
  | .p6 => true
  | .pentium4 => true
  | .xeon => true
  | .pentium => false
  | .intel486 => false
  | .intel386 => false

/-- What a write leaves in CR0: bit 4 replaced by 1 where the family hardwires it (R18, R92 (g)); the Intel386 and Intel486
keep the bit written (R18). -/
def cr0Stored (f : Family) (v : Word) : Word := if etHardwired f then setBit v 4 else v

/-- The reserved bits of CR0: `CR0_RSVD_MASK` (R26), and ET for the Pentium family, of which R18 says only "Reserved"
(DEDUCED, log entry 4). -/
def cr0Reserved (c : Config) : Word := c.cr0RsvdMask.setWidth 64 ||| (if c.family = .pentium then 0x10#64 else 0#64)

/-! ### The fields of CR3 (R29 to R34) -/

/-- `CR3_RSVD_OTHER`: the reserved bits of CR3 without 51:40 (R4, R94). -/
def cr3RsvdOther (c : Config) : Word := c.cr3RsvdHigh ++ 0#40 ++ c.cr3RsvdLow

/-- `CR3_RSVD_MASK` (R4): bits 51:40 from R32, the rest by parameter (R34). -/
def cr3RsvdMask (c : Config) : Word := c.cr3RsvdHigh ++ 0xFFF#12 ++ 0#28 ++ c.cr3RsvdLow

/-- PWT (R31). -/
def cr3Pwt (c : Config) (v : Word) : Bool := v.getLsbD c.cr3PwtBit

/-- PCD (R31). -/
def cr3Pcd (c : Config) (v : Word) : Bool := v.getLsbD c.cr3PcdBit

/-- The base address CR3 designates: bits 39:12, or 31:12 when `CRW(MODE) = 32`, followed by twelve zeros (R30). -/
def pdBase (m : Mode) (v : Word) : Word :=
  if m = .long64 then (v.extractLsb' 12 28).setWidth 64 <<< 12 else (v.extractLsb' 12 20).setWidth 64 <<< 12

/-! ### The fields of CR4 and CR8 (R35 to R38) -/

/-- `zext_64(CR4_RSVD_MASK)` (R95 (b)). -/
def cr4Reserved (c : Config) : Word := c.cr4RsvdMask.setWidth 64

/-- The bits `CR8_TPR_HI:CR8_TPR_LO`, moved to the low end. -/
def tprWidthMask (c : Config) : Word := (1#64 <<< (c.tprHi + 1 - c.tprLo)) - 1#64

/-- The bits `CR8_TPR_HI:CR8_TPR_LO` of CR8 (R38). -/
def tprMask (c : Config) : Word := tprWidthMask c <<< c.tprLo

/-- The priority threshold, `CR[8][CR8_TPR_HI:CR8_TPR_LO]` (R38, R137). -/
def tprOf (c : Config) (cr8 : Word) : Word := (cr8 >>> c.tprLo) &&& tprWidthMask c

/-! ### Reading and writing a control register -/

/-- `ReadCR` (R86): all 64 bits in 64-bit mode; otherwise the low 32 bits, the upper half of the cell a free value. -/
def State.readCr (s : State) (v : Word) (r : Gpr) : State :=
  if s.mode = .long64 then s.setGpr r v
  else (s.setGpr r (join32 (Config.draw32 s.draws) (lower32 v))).countDraws 1

/-- `SrcValue` (R87): all 64 bits of `x[i]` in 64-bit mode; otherwise `Upper(n)` over its low 32 bits. -/
def State.srcValue (s : State) (upper : BitVec 32) (r : Gpr) : Word :=
  if s.mode = .long64 then s.getGpr r else join32 upper (lower32 (s.getGpr r))

/-- `Upper(2)`: a free value, or 0 under `UPPER32_POLICY = zero` (R87). -/
def State.upper2 (s : State) : BitVec 32 :=
  match s.cfg.upper32 with
  | .draw => Config.draw32 s.draws
  | .zero => 0#32

/-- `Upper(3)`: a free byte in bits 39:32 and zeros above it, or 0 under `UPPER32_POLICY = zero` (R87). -/
def State.upper3 (s : State) : BitVec 32 :=
  match s.cfg.upper32 with
  | .draw => 0#24 ++ Config.draw8 s.draws
  | .zero => 0#32

/-- Bits 63:40 of the value a MOV to CR3 presents: those of `x[i]` in 64-bit mode, zeros otherwise (R87).  They are bits
63:40 of `SrcValue` (`srcTop3_eq`), written without the free byte below them. -/
def State.srcTop3 (s : State) (r : Gpr) : BitVec 24 :=
  if s.mode = .long64 then (s.getGpr r).extractLsb' 40 24 else 0#24

/-- "if v[51:40] != 0" (R94 (a)). -/
def State.cr3HasReserved51To40 (s : State) (r : Gpr) : Bool := (s.srcTop3 r).extractLsb' 0 12 != 0#12

/-- "if ((v xor CR[3]) and CR3_RSVD_OTHER) != 0" (R94 (b)), over bits 63:52 and 11:0, the only bits `CR3_RSVD_OTHER` has. -/
def State.cr3ChangesReserved (s : State) (r : Gpr) : Bool :=
  (((s.srcTop3 r).extractLsb' 12 12 ^^^ s.cr.cr3.extractLsb' 52 12) &&& s.cfg.cr3RsvdHigh) != 0#12 ||
    (((s.getGpr r).extractLsb' 0 12 ^^^ s.cr.cr3.extractLsb' 0 12) &&& s.cfg.cr3RsvdLow) != 0#12

end Sys2Proof.Machine
end

