-- ==== Sys2Proof/Machine/MovFromCr.lean ====
section
/-!
DEFINITION. The moves from a control register (40_mov_crn.md section 2): R88 to R91 and R97.
-/

namespace Sys2Proof.Machine

/-- MOV r, CR0 (R88). -/
def execMovFromCr0 (f : Form) (r : Gpr) (s : State) : Outcome :=
  s.checkPrivilege ((s.readCr s.cr.cr0 r).complete f.len none)

/-- MOV r, CR2 (R89). -/
def execMovFromCr2 (f : Form) (r : Gpr) (s : State) : Outcome :=
  s.checkPrivilege ((s.readCr s.cr.cr2 r).complete f.len none)

/-- MOV r, CR3 (R90). -/
def execMovFromCr3 (f : Form) (r : Gpr) (s : State) : Outcome :=
  s.checkPrivilege ((s.readCr s.cr.cr3 r).complete f.len none)

/-- MOV r, CR4 (R91). -/
def execMovFromCr4 (f : Form) (r : Gpr) (s : State) : Outcome :=
  s.checkPrivilege ((s.readCr s.cr.cr4 r).complete f.len none)

/-- MOV r, CR8 (R97): always 64 bits, since the instruction exists only in 64-bit mode (R72, R80). -/
def execMovFromCr8 (f : Form) (r : Gpr) (s : State) : Outcome :=
  s.checkPrivilege ((s.setGpr r s.cr.cr8).complete f.len none)

end Sys2Proof.Machine
end

