-- ==== Sys2Proof/Machine/Modes.lean ====
section
/-!
DEFINITION. The constraints on `MODE` and `CPL` that the environment respects (60_exceptions.md R141, R143), and the MODE and CPL it
puts in force with a MOV to CR0 that changes PE or PG (40_mov_crn.md R92).
-/

namespace Sys2Proof.Machine

/-- R141 (a): "`MODE = V86` implies `CPL = 3`". -/
def modeCplOk (m : Mode) (cpl : Fin 4) : Bool := m != .v86 || cpl == 3

/-- R143 (c), a named assumption about the environment: `MODE = Real` exactly when PE is clear; IA-32e mode implies PG and PE
set (PRESUMED, log entry 9). -/
def modeCr0Ok (m : Mode) (cr0 : Word) : Bool :=
  (m == .real) == !cr0Pe cr0 && (!isIa32e m || (cr0Pg cr0 && cr0Pe cr0))

/-- The environment may put `m` and `cpl` in force in a step that leaves `v` in CR0: R141 (a); R143 (c) for the new CR0; R143 (a):
`IA32e(MODE)` differs only if the step changes PG; and the end of R143 (c): real-address mode is entered and left only if it changes
PE. -/
def State.modeAllowed (s : State) (v : Word) (m : Mode) (cpl : Fin 4) : Bool :=
  modeCplOk m cpl && modeCr0Ok m v &&
    (isIa32e m == isIa32e s.mode || cr0Pg v != cr0Pg s.cr.cr0) &&
    ((m == .real) == (s.mode == .real) || cr0Pe v != cr0Pe s.cr.cr0)

/-- The MODE and CPL the environment wants: those of `modeInput`, or those in force. -/
def State.wantedMode (s : State) : Mode × Fin 4 := s.modeInput.getD (s.mode, s.cpl)

/-- The MODE and CPL in force after a MOV that leaves `v` in CR0 and changed PE or PG: what the environment wants, if that is
allowed; otherwise real-address mode with PE clear, and with PE set a free value among the allowed ones (log entry 23).  The last
case cannot be told from the free value. -/
def State.nextMode (s : State) (v : Word) : Mode × Fin 4 :=
  if s.modeAllowed v s.wantedMode.1 s.wantedMode.2 then s.wantedMode
  else if cr0Pe v = false then (.real, s.cpl)
  else if s.modeAllowed v (Config.drawMode s.draws).1 (Config.drawMode s.draws).2 then Config.drawMode s.draws
  else (.prot32, s.cpl)

/-- The write of `v` to CR0 changes PE or PG. -/
def State.changesPeOrPg (s : State) (v : Word) : Bool := cr0Pe v != cr0Pe s.cr.cr0 || cr0Pg v != cr0Pg s.cr.cr0

/-- "After a write that changes PE or PG the environment's next `MODE` must be consistent with" R143 (R92); any other write leaves
MODE and CPL alone. -/
def State.modeAtLoad (s : State) (v : Word) : Option (Mode × Fin 4) :=
  if s.changesPeOrPg v then some (s.nextMode v) else none

end Sys2Proof.Machine
end

