-- ==== Sys2Proof/Machine/MovToCr.lean ====
section
/-!
DEFINITION. The moves to a control register (40_mov_crn.md section 3): R92 to R96.  In each, the raises the source names come
before the refusals (R85 step 3, R130).
-/

namespace Sys2Proof.Machine

/-- The checks and the commit of R92 on the value `v` written to CR0; a write that changes PE or PG takes the environment's next
MODE and CPL with it (R92, R143). -/
def State.loadCr0 (s : State) (v : Word) (len : Nat) : Outcome :=
  if upper32 v ≠ 0#32 then raiseGp 0
  else if cr0Pg v = true ∧ cr0Pe v = false then raiseGp 0
  else if cr0Nw v = true ∧ cr0Cd v = false then .refused .cr0NwWithoutCd
  else if s.mode = .long64 ∧ cr0Pg s.cr.cr0 = true ∧ cr0Pg v = false then .refused .cr0PgClearedIn64BitMode
  else if cr0Pg s.cr.cr0 = false ∧ cr0Pg v = true ∧ s.activationOk = false then .refused .cr0PagingEnableConditions
  else if (v ^^^ s.cr.cr0) &&& cr0Reserved s.cfg ≠ 0#64 then .refused .cr0ReservedBitsChanged
  else (s.setCr0 (cr0Stored s.cfg.family v)).complete len (s.modeAtLoad (cr0Stored s.cfg.family v))

/-- MOV CR0, r (R92); `Upper(0)` is 0 (R87). -/
def execMovToCr0 (f : Form) (r : Gpr) (s : State) : Outcome :=
  s.checkPrivilege (s.loadCr0 (s.srcValue 0#32 r) f.len)

/-- MOV CR2, r (R93): no value is checked. -/
def execMovToCr2 (f : Form) (r : Gpr) (s : State) : Outcome :=
  s.checkPrivilege (((s.setCr2 (s.srcValue s.upper2 r)).countDraws 1).complete f.len none)

/-- The checks and the commit of R94. -/
def State.loadCr3 (s : State) (r : Gpr) (len : Nat) : Outcome :=
  if s.cr3HasReserved51To40 r then .refused .cr3Reserved51To40Nonzero
  else if s.cr3ChangesReserved r then .refused .cr3ReservedBitsChanged
  else ((s.setCr3 (s.srcValue s.upper3 r)).countDraws 1).complete len none

/-- MOV CR3, r (R94). -/
def execMovToCr3 (f : Form) (r : Gpr) (s : State) : Outcome :=
  s.checkPrivilege (s.loadCr3 r f.len)

/-- The checks and the commit of R95 on the value `v` written to CR4. -/
def State.loadCr4 (s : State) (v : Word) (len : Nat) : Outcome :=
  if upper32 v ≠ 0#32 then raiseGp 0
  else if (v ^^^ s.cr.cr4) &&& cr4Reserved s.cfg ≠ 0#64 then .refused .cr4ReservedBitsChanged
  else if isIa32e s.mode = true ∧ v.getLsbD 5 ≠ s.cr.cr4.getLsbD 5 then .refused .cr4PaeChangedInIa32e
  else (s.setCr4 v).complete len none

/-- MOV CR4, r (R95); `Upper(4)` is 0 (R87). -/
def execMovToCr4 (f : Form) (r : Gpr) (s : State) : Outcome :=
  s.checkPrivilege (s.loadCr4 (s.srcValue 0#32 r) f.len)

/-- The check and the commit of R96 on the value `v` written to CR8. -/
def State.loadCr8 (s : State) (v : Word) (len : Nat) : Outcome :=
  if v &&& ~~~ tprMask s.cfg ≠ 0#64 then .refused .cr8ReservedBitsNonzero
  else (s.setCr8 v).complete len none

/-- MOV CR8, r (R96): always 64 bits, since the instruction exists only in 64-bit mode (R72, R80). -/
def execMovToCr8 (f : Form) (r : Gpr) (s : State) : Outcome :=
  s.checkPrivilege (s.loadCr8 (s.getGpr r) f.len)

end Sys2Proof.Machine
end

