-- ==== Sys2Proof/Machine/ReservedCr.lean ====
section
/-!
DEFINITION. The control-register numbers with no register behind them (40_mov_crn.md R98): "The model refuses both directions
for every such `n`, before the privilege check".
-/

namespace Sys2Proof.Machine

/-- `refuse(reserved_control_register n)` (R85 step 1, R98): nothing is read or written. -/
def refuseReserved (n : Nat) : Outcome := .refused (.reservedControlRegister n)

/-- MOV r, CR1 (R98). -/
def execMovFromCr1 (_f : Form) (_r : Gpr) (_s : State) : Outcome := refuseReserved 1

/-- MOV r, CR5 (R98). -/
def execMovFromCr5 (_f : Form) (_r : Gpr) (_s : State) : Outcome := refuseReserved 5

/-- MOV r, CR6 (R98). -/
def execMovFromCr6 (_f : Form) (_r : Gpr) (_s : State) : Outcome := refuseReserved 6

/-- MOV r, CR7 (R98). -/
def execMovFromCr7 (_f : Form) (_r : Gpr) (_s : State) : Outcome := refuseReserved 7

/-- MOV r, CR9 (R98). -/
def execMovFromCr9 (_f : Form) (_r : Gpr) (_s : State) : Outcome := refuseReserved 9

/-- MOV r, CR10 (R98). -/
def execMovFromCr10 (_f : Form) (_r : Gpr) (_s : State) : Outcome := refuseReserved 10

/-- MOV r, CR11 (R98). -/
def execMovFromCr11 (_f : Form) (_r : Gpr) (_s : State) : Outcome := refuseReserved 11

/-- MOV r, CR12 (R98). -/
def execMovFromCr12 (_f : Form) (_r : Gpr) (_s : State) : Outcome := refuseReserved 12

/-- MOV r, CR13 (R98). -/
def execMovFromCr13 (_f : Form) (_r : Gpr) (_s : State) : Outcome := refuseReserved 13

/-- MOV r, CR14 (R98). -/
def execMovFromCr14 (_f : Form) (_r : Gpr) (_s : State) : Outcome := refuseReserved 14

/-- MOV r, CR15 (R98). -/
def execMovFromCr15 (_f : Form) (_r : Gpr) (_s : State) : Outcome := refuseReserved 15

/-- MOV CR1, r (R98). -/
def execMovToCr1 (_f : Form) (_r : Gpr) (_s : State) : Outcome := refuseReserved 1

/-- MOV CR5, r (R98). -/
def execMovToCr5 (_f : Form) (_r : Gpr) (_s : State) : Outcome := refuseReserved 5

/-- MOV CR6, r (R98). -/
def execMovToCr6 (_f : Form) (_r : Gpr) (_s : State) : Outcome := refuseReserved 6

/-- MOV CR7, r (R98). -/
def execMovToCr7 (_f : Form) (_r : Gpr) (_s : State) : Outcome := refuseReserved 7

/-- MOV CR9, r (R98). -/
def execMovToCr9 (_f : Form) (_r : Gpr) (_s : State) : Outcome := refuseReserved 9

/-- MOV CR10, r (R98). -/
def execMovToCr10 (_f : Form) (_r : Gpr) (_s : State) : Outcome := refuseReserved 10

/-- MOV CR11, r (R98). -/
def execMovToCr11 (_f : Form) (_r : Gpr) (_s : State) : Outcome := refuseReserved 11

/-- MOV CR12, r (R98). -/
def execMovToCr12 (_f : Form) (_r : Gpr) (_s : State) : Outcome := refuseReserved 12

/-- MOV CR13, r (R98). -/
def execMovToCr13 (_f : Form) (_r : Gpr) (_s : State) : Outcome := refuseReserved 13

/-- MOV CR14, r (R98). -/
def execMovToCr14 (_f : Form) (_r : Gpr) (_s : State) : Outcome := refuseReserved 14

/-- MOV CR15, r (R98). -/
def execMovToCr15 (_f : Form) (_r : Gpr) (_s : State) : Outcome := refuseReserved 15

end Sys2Proof.Machine
end

