-- ==== Sys2Proof/Machine/Dispatch.lean ====
section
/-!
DEFINITION. The dispatch: one arm per instruction of the opcode table.
-/

namespace Sys2Proof.Machine

def exec (i : Instr) (s : State) : Host.Outcome State Fault Refusal :=
  match i with
  | .movFromCr0 f r => Sys2Proof.Machine.execMovFromCr0 f r s
  | .movFromCr2 f r => Sys2Proof.Machine.execMovFromCr2 f r s
  | .movFromCr3 f r => Sys2Proof.Machine.execMovFromCr3 f r s
  | .movFromCr4 f r => Sys2Proof.Machine.execMovFromCr4 f r s
  | .movFromCr8 f r => Sys2Proof.Machine.execMovFromCr8 f r s
  | .movToCr0 f r => Sys2Proof.Machine.execMovToCr0 f r s
  | .movToCr2 f r => Sys2Proof.Machine.execMovToCr2 f r s
  | .movToCr3 f r => Sys2Proof.Machine.execMovToCr3 f r s
  | .movToCr4 f r => Sys2Proof.Machine.execMovToCr4 f r s
  | .movToCr8 f r => Sys2Proof.Machine.execMovToCr8 f r s
  | .movFromCr1 f r => Sys2Proof.Machine.execMovFromCr1 f r s
  | .movFromCr5 f r => Sys2Proof.Machine.execMovFromCr5 f r s
  | .movFromCr6 f r => Sys2Proof.Machine.execMovFromCr6 f r s
  | .movFromCr7 f r => Sys2Proof.Machine.execMovFromCr7 f r s
  | .movFromCr9 f r => Sys2Proof.Machine.execMovFromCr9 f r s
  | .movFromCr10 f r => Sys2Proof.Machine.execMovFromCr10 f r s
  | .movFromCr11 f r => Sys2Proof.Machine.execMovFromCr11 f r s
  | .movFromCr12 f r => Sys2Proof.Machine.execMovFromCr12 f r s
  | .movFromCr13 f r => Sys2Proof.Machine.execMovFromCr13 f r s
  | .movFromCr14 f r => Sys2Proof.Machine.execMovFromCr14 f r s
  | .movFromCr15 f r => Sys2Proof.Machine.execMovFromCr15 f r s
  | .movToCr1 f r => Sys2Proof.Machine.execMovToCr1 f r s
  | .movToCr5 f r => Sys2Proof.Machine.execMovToCr5 f r s
  | .movToCr6 f r => Sys2Proof.Machine.execMovToCr6 f r s
  | .movToCr7 f r => Sys2Proof.Machine.execMovToCr7 f r s
  | .movToCr9 f r => Sys2Proof.Machine.execMovToCr9 f r s
  | .movToCr10 f r => Sys2Proof.Machine.execMovToCr10 f r s
  | .movToCr11 f r => Sys2Proof.Machine.execMovToCr11 f r s
  | .movToCr12 f r => Sys2Proof.Machine.execMovToCr12 f r s
  | .movToCr13 f r => Sys2Proof.Machine.execMovToCr13 f r s
  | .movToCr14 f r => Sys2Proof.Machine.execMovToCr14 f r s
  | .movToCr15 f r => Sys2Proof.Machine.execMovToCr15 f r s

end Sys2Proof.Machine
end

