-- ==== Sys2Proof/Machine/Platform.lean ====
section
/-!
DEFINITION. The Task Priority Register's interrupt filter (60_exceptions.md R137), the reporting of x87 FPU errors (R138), the
exceptions the spec names and refers to (R120, R124, R125).
-/

namespace Sys2Proof.Machine

/-- `may_interrupt(class)` requires `class > TPR`, in every mode (R137, D22).  A necessary condition only. -/
def State.mayInterrupt (s : State) (cls : BitVec 4) : Bool := decide ((tprOf s.cfg s.cr.cr8).toNat < cls.toNat)

/-- How an unmasked x87 FPU error is reported (R138). -/
inductive X87Reporting where
  | native
  | ignored
  | pcStyle
deriving DecidableEq, Repr

/-- NE set: the native mechanism; NE clear: ignored while IGNNE# is asserted, else PC-style (R138). -/
def State.x87Reporting (s : State) : X87Reporting :=
  if cr0Ne s.cr.cr0 then .native
  else if s.ignne then .ignored
  else .pcStyle

/-- "the processor ... tests" TS "when executing x87 FPU/MMX/SSE/SSE2/SSE3 instructions" (R113): the flag the test reads.  What
the test leads to is lost, and no instruction in scope makes it. -/
def State.tsTest (s : State) : Bool := cr0Ts s.cr.cr0

/-- The exceptions the spec names or refers to (R120, R124); #UD only in notes beside refusals (R98). -/
inductive ExceptionName where
  | invalidOpcode
  | deviceNotAvailable
  | generalProtection
  | pageFault
  | x87FloatingPoint
  | alignmentCheck
deriving DecidableEq, Repr

/-- The vector numbers of R125.  PRESUMED: "from general knowledge, not in source"; no rule and no step depends on one. -/
def vectorOf : ExceptionName → Nat
  | .invalidOpcode => 6
  | .deviceNotAvailable => 7
  | .generalProtection => 13
  | .pageFault => 14
  | .x87FloatingPoint => 16
  | .alignmentCheck => 17

end Sys2Proof.Machine
end

