-- ==== Sys2Proof/Machine/Events.lean ====
section
/-!
DEFINITION. The environment's steps between two instructions (41_processor_events.md R110 to R115, 60_exceptions.md R137,
R138).  An event whose `requires` does not hold is refused: the environment cannot make it.
-/

namespace Sys2Proof.Machine

/-- `PageFault(la)` (R110, R111): with paging enabled, CR2 receives the linear address, 64 bits in 64-bit mode, otherwise its
low 32 bits under `Upper(2)`. -/
def State.pageFault (s : State) (la : Word) : Outcome :=
  if cr0Pg s.cr.cr0 then
    .next ((s.setCr2 (if s.mode = .long64 then la else join32 s.upper2 (lower32 la))).countDraws 1)
  else .refused .eventNotEnabled

/-- What R112 asks of the value a task switch puts into CR3. -/
def State.taskCr3Ok (s : State) (w : Word) : Bool :=
  w.extractLsb' 40 12 == 0#12 && (w &&& cr3RsvdOther s.cfg) == (s.cr.cr3 &&& cr3RsvdOther s.cfg)

/-- `TaskSwitch` (R112): TS is set and CR3 receives a value of the environment's. -/
def State.taskSwitch (s : State) (w : Word) : Outcome :=
  if s.taskCr3Ok w then .next ((s.setCr0 (setBit s.cr.cr0 3)).setCr3 w) else .refused .eventNotEnabled

/-- An external interrupt of a class (R137): the filter lets it through, which is recorded, or holds it back.  Its delivery is
not in the spec (R134, log entry 10). -/
def State.externalInterrupt (s : State) (cls : BitVec 4) : Outcome :=
  .next (if s.mayInterrupt cls then { s with admitted := some cls } else s)

/-- An unmasked x87 FPU error (R138); a masked one never reports. -/
def State.x87Error (s : State) (unmasked : Bool) : Outcome :=
  .next (if unmasked then
      match s.x87Reporting with
      | .native => { s with x87 := .native }
      | .ignored => s
      | .pcStyle => { s with ferr := true, x87 := .stopAtNextWaiting }
    else s)

/-- The environment changes `MODE` and `CPL` between two instructions (R115, R141, R143).  CR0 does not change in this step, so
neither `IA32e(MODE)` nor the difference of real-address mode from the others can (`State.modeAllowed`). -/
def State.changeMode (s : State) (m : Mode) (cpl : Fin 4) : Outcome :=
  if s.modeAllowed s.cr.cr0 m cpl then
    .next { s with mode := m, cpl := cpl }
  else .refused .eventNotEnabled

/-- One environment event (R115). -/
def applyEvent (e : Event) (s : State) : Outcome :=
  match e with
  | .pageFault la => s.pageFault la
  | .taskSwitch w => s.taskSwitch w
  | .externalInterrupt cls => s.externalInterrupt cls
  | .x87Error unmasked => s.x87Error unmasked
  | .setIgnne b => .next { s with ignne := b }
  | .setModeCpl m cpl => s.changeMode m cpl
  | .setModeInput p => .next { s with modeInput := p }
  | .setAc b => .next { s with ac := b }
  | .setPaeEnabled b => .next { s with paeEnabled := b }
  | .setActivationOk b => .next { s with activationOk := b }

end Sys2Proof.Machine
end

