-- ==== Sys2Proof/Machine/Fetch.lean ====
section
/-!
DEFINITION. Fetching an instruction's bytes at pc (70_reset_and_hazards.md R158).  The pc is a linear address that the spec
never translates (R68, R156).
-/

namespace Sys2Proof.Machine

/-- Why the fetched bytes end where they end. -/
inductive FetchEnd where
  /-- The longest instruction has been read. -/
  | full
  /-- The next byte would lie past the top of the address space (R42). -/
  | top
  /-- Nothing has written the next byte (log entry 6). -/
  | unwritten (address : Nat)
deriving DecidableEq, Repr

/-- Up to `n` bytes at ascending addresses, and why they end. -/
def fetchBytes (m : List Host.Cell) (limit : Nat) : Nat → Nat → List Byte × FetchEnd
  | 0, _ => ([], .full)
  | n + 1, a =>
    if a < limit then
      match Memory.read1 m a with
      | none => ([], .unwritten a)
      | some b => (b :: (fetchBytes m limit n (a + 1)).1, (fetchBytes m limit n (a + 1)).2)
    else ([], .top)

/-- The bytes at pc, at most the longest instruction. -/
def State.fetched (s : State) : List Byte × FetchEnd := fetchBytes s.mem (pcLimit s.mode) maxInstrLen s.ip

/-- The outcome of a step whose bytes do not decode (R75, R77, R158); where the bytes ran out, of the byte that is not there. -/
def fetchStop (e : DecodeError) (why : FetchEnd) : Outcome :=
  match e with
  | .notAMovCrn => .refused .notAMovCrn
  | .lockPrefix => .refused .lockPrefixOnMovCrn
  | .repeatPrefix => .refused .repeatPrefixOnMovCrn
  | .tooManyPrefixes => .refused .tooManyPrefixes
  | .truncated =>
    match why with
    | .unwritten a => .fault (.fetchOfUnwrittenByte a)
    | .top => .refused .pcOverflow
    | .full => .refused .notAMovCrn

/-- The bytes of a table word stored at pc, up to the longest instruction. -/
def State.storeAtPc (s : State) (nbits w : Nat) : State :=
  { s with mem := Memory.writeBytes s.mem s.ip (tableWordBytes nbits w) }

/-- The schedule with the next step an instruction's. -/
def instrNext : List EnvStep → List EnvStep
  | [] => []
  | e :: es => .instr :: e :: es

end Sys2Proof.Machine
end

