-- ==== Sys2Proof/Machine/Step.lean ====
section
/-!
DEFINITION. One step (70_reset_and_hazards.md R158): one environment event, or one MOV CRn fetched at pc.
-/

namespace Sys2Proof.Machine

/-- One instruction: fetched at pc, decoded in the mode in force, executed (R85, R158). -/
def runInstr (s : State) : Outcome :=
  match decode s.mode s.fetched.1 with
  | .ok (i, _) => exec i s
  | .error e => fetchStop e s.fetched.2

/-- "Each step is either one MOV CRn fetched at `pc` ... or one environment event" (R158); the schedule `env` says which, and an
empty schedule runs instructions. -/
def step (s : State) : Host.Outcome State Fault Refusal :=
  match s.env with
  | [] => runInstr s
  | .instr :: es => runInstr { s with env := es }
  | .event e :: es => applyEvent e { s with env := es }

/-- The instruction of a table word stored where the next step fetches it, the next step being an instruction's: this stands for
the loading of a program from outside the machine (log entry 7). -/
def State.withFetchWord (s : State) (nbits w : Nat) : State :=
  { s.storeAtPc nbits w with env := instrNext s.env }

end Sys2Proof.Machine
end

