-- ==== Sys2Proof/Machine/MemorySystem.lean ====
section
/-!
DEFINITION. What the control registers switch in the memory system (20_memory.md R50 to R58): predicates and relations over
accesses that an enclosing model makes.  No instruction in scope makes a data access (R60), so no step calls them.
-/

namespace Sys2Proof.Machine

/-- What CR3's base points at (R33). -/
inductive PagingStructure where
  | pageDirectory
  | pageDirectoryPointerTable
  | pml4Table
deriving DecidableEq, Repr

/-- "In IA-32e mode" the PML4 table; "When using the physical address extension" the page-directory-pointer table; the page
directory otherwise (R33, R52). -/
def State.pagingStructure (s : State) : PagingStructure :=
  if isIa32e s.mode then .pml4Table
  else if s.paeEnabled then .pageDirectoryPointerTable
  else .pageDirectory

/-- Translation takes place only with PG set and PE set: "The PG flag has no effect if the PE flag ... is not also set"
(R51 to R53). -/
def State.pagingActive (s : State) : Bool := cr0Pg s.cr.cr0 && cr0Pe s.cr.cr0

/-- The translation of a linear address: the address itself without paging (R51, R53), the environment's `Translate` with it
(R52). -/
def State.translate (s : State) (linear : Word) (access : AccessKind) : Translation :=
  if s.pagingActive then
    Config.translate s.draws
      { cr3 := s.cr.cr3, paeEnabled := s.paeEnabled, mode := s.mode, wp := cr0Wp s.cr.cr0, cpl := s.cpl,
        linear := linear, access := access }
  else .physical linear

/-- An access as the WP rule sees it; the paging mechanism supplies the fields (R54). -/
structure PageAccess where
  isWrite : Bool
  supervisor : Bool
  userPage : Bool
  readOnly : Bool
deriving DecidableEq, Repr

/-- `write_allowed_by_WP` (R54). -/
def State.writeAllowedByWp (s : State) (a : PageAccess) : Bool :=
  !(a.isWrite && a.supervisor && a.userPage && a.readOnly && cr0Wp s.cr.cr0)

/-- `alignment_checking_on` (R55): AM, AC, CPL 3, and protected or virtual-8086 mode. -/
def State.alignmentCheckingOn (s : State) : Bool :=
  cr0Am s.cr.cr0 && s.ac && s.cpl == 3 && s.mode != .real

/-- The write policy for writes that hit the cache with CD and NW clear (R57). -/
inductive WritePolicy where
  | writeBack
  | writeThrough
  /-- The text names no policy for the family. -/
  | notStated
deriving DecidableEq, Repr

/-- "write-back (for Pentium 4, Intel Xeon, P6 family, and Pentium processors) or write-through (for Intel486 processors)"
(R57). -/
def writePolicy : Family → WritePolicy
  | .pentium4 => .writeBack
  | .xeon => .writeBack
  | .p6 => .writeBack
  | .pentium => .writeBack
  | .intel486 => .writeThrough
  | .intel386 => .notStated

/-- What the text settles of caching for each setting of CD and NW (R56). -/
inductive CacheControl where
  /-- Caching of the whole of physical memory and invalidation cycles are enabled. -/
  | enabled (policy : WritePolicy)
  /-- "caching is restricted as described in Table 10-5", which is lost. -/
  | restricted
  /-- CD clear with NW set: left to Table 10-5. -/
  | notSettled
deriving DecidableEq, Repr

/-- The cache control in force (R56, R57). -/
def State.cacheControl (s : State) : CacheControl :=
  if cr0Cd s.cr.cr0 then .restricted
  else if cr0Nw s.cr.cr0 then .notSettled
  else .enabled (writePolicy s.cfg.family)

/-- Whether no cache hit can occur: "the CD flag must be set and the caches must be invalidated" (R58); the caches' own state
is the environment's. -/
def State.cachesOutOfUse (s : State) (invalidated : Bool) : Bool := cr0Cd s.cr.cr0 && invalidated

end Sys2Proof.Machine
end

