-- ==== Sys2Proof/Safety.lean ====
section
/-!
DEFINITION. The terms in which claims are made: the invariant of 10_state.md R47 with the launch premises of
70_reset_and_hazards.md R151, what a completing MOV CRn leaves alone, which instruction or event a step takes, and safe runs.
-/

namespace Sys2Proof.Machine

/-- The invariants of R47 and the premises of R151, with R141 (a), R143 (c) and the canonical form of memory. -/
structure State.Inv (s : State) : Prop where
  /-- `CR[0][63:32] = 0` (R47). -/
  cr0Upper : upper32 s.cr.cr0 = 0#32
  /-- `CR[4][63:32] = 0` (R47). -/
  cr4Upper : upper32 s.cr.cr4 = 0#32
  /-- `CR[0][4] = 1` for the families that hardwire ET (R18, R47). -/
  et : etHardwired s.cfg.family = true → cr0Et s.cr.cr0 = true
  /-- Not (`CR0.PG = 1` and `CR0.PE = 0`) (R47). -/
  pgPe : cr0Pg s.cr.cr0 = true → cr0Pe s.cr.cr0 = true
  /-- `CR[3][51:40] = 0` (R32, R151). -/
  cr3Reserved : s.cr.cr3.extractLsb' 40 12 = 0#12
  /-- `CR[8]` has no bit set outside its threshold field (R151). -/
  cr8Reserved : s.cr.cr8 &&& ~~~ tprMask s.cfg = 0#64
  /-- `MODE = V86` implies `CPL = 3` (R141 (a)). -/
  v86 : s.mode = .v86 → s.cpl = 3
  /-- `MODE` agrees with CR0 (R143 (c), PRESUMED, log entry 9). -/
  modeCr0 : modeCr0Ok s.mode s.cr.cr0 = true
  /-- Memory is in canonical form. -/
  memWf : Memory.wf s.mem = true

/-- `pc <- pc + len`, truncated to 32 bits when `MODE != Long64` (R42, R99). -/
def State.advancedPc (s : State) (len : Nat) : Word :=
  if s.mode = .long64 then s.pc + BitVec.ofNat 64 len else (lower32 s.pc + BitVec.ofNat 32 len).setWidth 64

/-- What every completing MOV CRn leaves unchanged, each byte of memory included (R60, R99). -/
structure InstrFrame (s t : State) : Prop where
  ac : t.ac = s.ac
  activationOk : t.activationOk = s.activationOk
  paeEnabled : t.paeEnabled = s.paeEnabled
  ignne : t.ignne = s.ignne
  ferr : t.ferr = s.ferr
  x87 : t.x87 = s.x87
  env : t.env = s.env
  admitted : t.admitted = s.admitted
  cfg : t.cfg = s.cfg
  bytes : ∀ a, Memory.read1 t.mem a = Memory.read1 s.mem a

/-- MODE, CPL and what the environment wants of them are as before; so after every MOV CRn but a MOV to CR0 that changes PE or PG
(R92, R143). -/
structure ModeKept (s t : State) : Prop where
  mode : t.mode = s.mode
  cpl : t.cpl = s.cpl
  modeInput : t.modeInput = s.modeInput

/-- The completion of R99: pc past the instruction, and six flags that are free values not drawn before. -/
structure Completed (s t : State) (len : Nat) : Prop where
  pc : t.pc = s.advancedPc len
  flags : ∃ n, s.draws ≤ n ∧ t.flags = StatusFlags.drawn n ∧ n + 6 ≤ t.draws

/-- A completed move of the value `v` from a control register to `x[r]` (R86, R99): the low 32 bits always, all 64 in 64-bit
mode, otherwise a free upper half; no control register and no other general register changes. -/
structure ReadDone (s t : State) (len : Nat) (r : Gpr) (v : Word) : Prop where
  frame : InstrFrame s t
  completed : Completed s t len
  modes : ModeKept s t
  cr : t.cr = s.cr
  low : lower32 (t.getGpr r) = lower32 v
  whole : s.mode = .long64 → t.getGpr r = v
  freeHalf : s.mode ≠ .long64 → upper32 (t.getGpr r) = Config.draw32 s.draws
  others : ∀ q, q ≠ r → t.getGpr q = s.getGpr q

/-- A completed move to a control register that leaves the control registers as `cr'` (R99): no general register changes.  Of MODE
and CPL it says nothing. -/
structure LoadDone (s t : State) (len : Nat) (cr' : CtrlRegs) : Prop where
  frame : InstrFrame s t
  completed : Completed s t len
  cr : t.cr = cr'
  gpr : ∀ q, t.getGpr q = s.getGpr q

/-- A completed move to a control register that leaves MODE and CPL alone. -/
structure WriteDone (s t : State) (len : Nat) (cr' : CtrlRegs) : Prop extends LoadDone s t len cr' where
  modes : ModeKept s t

/-- A MOV CRn of `len` bytes meets neither the privilege check nor an overflow of pc (R42, R85). -/
def State.mayRun (s : State) (len : Nat) : Prop := (s.mode = .real ∨ s.cpl = 0) ∧ s.pcFits len = true

/-- The next step runs the instruction `i`. -/
def State.runs (s : State) (i : Instr) : Prop :=
  (s.env = [] ∨ ∃ es, s.env = .instr :: es) ∧ ∃ rest, decode s.mode s.fetched.1 = .ok (i, rest)

/-- The next step takes the environment event `e`. -/
def State.takes (s : State) (e : Event) : Prop := ∃ es, s.env = .event e :: es

/-- The instruction in another form: other ignored bits and prefixes, the same move (R73, R75). -/
def reform (i : Instr) (g : Form) : Instr := Instr.ofFields i.dir i.crNum g i.gpr

/-- The control-register numbers with a register behind them (R85 step 1). -/
def hasRegister (n : BitVec 4) : Bool := n == 0#4 || n == 2#4 || n == 3#4 || n == 4#4 || n == 8#4

/-- The bits R14 gives CR0 are none of its reserved ones (R4, R16, D15, D16). -/
def cr0MaskOk (c : Config) : Bool := c.cr0RsvdMask &&& 0xE005003F#32 == 0#32

/-- A run of `k` steps is safe: it meets neither a fault nor a refusal. -/
def SafeRun (k : Nat) (s : State) : Prop := ∃ t, Sys2Proof.core.run k s = .next t

end Sys2Proof.Machine
end

