-- ==== Sys2Proof/Certificates/Slice0/Obligations.lean ====
section
/-!
DEFINITION. The statements for the provers.  Each holds for every state, and so for every configuration `cfg` a state
carries; those about the instructions also say what stays unchanged (`InstrFrame`, `ReadDone`, `WriteDone`).
-/

open Sys2Proof Sys2Proof.Machine

/-! ### Encoding -/

/-- R70 to R78: what `encode` writes, whatever bytes follow it, decodes to the instruction, for every instruction that has an
encoding in the mode. -/
def Obligations.DecodeOfEncodeIsTheInstruction : Prop :=
  ∀ (m : Mode) (i : Instr) (rest : List Byte),
    i.wellFormed m = true → decode m (encode i ++ rest) = .ok (i, rest)

/-- R70 to R78: bytes that decode are the encoding of the instruction they decode to, which is well formed; so no bit is
dropped and every accepted byte sequence has one reading. -/
def Obligations.EncodeOfDecodeIsTheBytes : Prop :=
  ∀ (m : Mode) (bs : List Byte) (i : Instr) (rest : List Byte),
    decode m bs = .ok (i, rest) → i.wellFormed m = true ∧ bs = encode i ++ rest

/-- R79: its ten worked encodings, each in the modes it is given for, the 32-bit ones in every mode but 64-bit mode.  R79 marks its
table as general knowledge, as all byte encodings of the spec are (decision D7; PRESUMED, log entry 14). -/
def Obligations.WorkedEncodingsDecode : Prop :=
  (∀ m : Mode, m ≠ .long64 →
    decode m [0x0F#8, 0x20#8, 0xC0#8] = .ok (.movFromCr0 ⟨[], none, 3#2⟩ 0#4, []) ∧
    decode m [0x0F#8, 0x22#8, 0xC0#8] = .ok (.movToCr0 ⟨[], none, 3#2⟩ 0#4, []) ∧
    decode m [0x66#8, 0x0F#8, 0x20#8, 0xC0#8] = .ok (.movFromCr0 ⟨[.opSize], none, 3#2⟩ 0#4, []) ∧
    Form.len ⟨[.opSize], none, 3#2⟩ = 4) ∧
  decode .long64 [0x0F#8, 0x20#8, 0xD8#8] = .ok (.movFromCr3 ⟨[], none, 3#2⟩ 0#4, []) ∧
  decode .long64 [0x0F#8, 0x22#8, 0xD0#8] = .ok (.movToCr2 ⟨[], none, 3#2⟩ 0#4, []) ∧
  decode .long64 [0x0F#8, 0x22#8, 0xE1#8] = .ok (.movToCr4 ⟨[], none, 3#2⟩ 1#4, []) ∧
  decode .long64 [0x44#8, 0x0F#8, 0x22#8, 0xC0#8] = .ok (.movToCr8 ⟨[], some ⟨false, false⟩, 3#2⟩ 0#4, []) ∧
  decode .long64 [0x44#8, 0x0F#8, 0x20#8, 0xC2#8] = .ok (.movFromCr8 ⟨[], some ⟨false, false⟩, 3#2⟩ 2#4, []) ∧
  decode .long64 [0x41#8, 0x0F#8, 0x20#8, 0xD9#8] = .ok (.movFromCr3 ⟨[], some ⟨false, false⟩, 3#2⟩ 9#4, []) ∧
  decode .long64 [0x0F#8, 0x20#8, 0x03#8] = .ok (.movFromCr0 ⟨[], none, 0#2⟩ 3#4, [])

/-- R75 (D18): a LOCK prefix among at most four prefixes makes every MOV CRn a refusal, and so does a repeat prefix.  That a reserved
control-register number, which R98 refuses too, is then refused for its prefix is the model's choice (log entry 8). -/
def Obligations.LockAndRepeatPrefixesAreRefused : Prop :=
  ∀ (m : Mode) (i : Instr) (before after : List LegacyPrefix) (rest : List Byte),
    i.wellFormed m = true → i.form.prefixes = [] → before.length + after.length < 4 →
      decode m (before.map LegacyPrefix.byte ++ 0xF0#8 :: (after.map LegacyPrefix.byte ++ encode i ++ rest))
        = .error .lockPrefix ∧
      decode m (before.map LegacyPrefix.byte ++ 0xF2#8 :: (after.map LegacyPrefix.byte ++ encode i ++ rest))
        = .error .repeatPrefix ∧
      decode m (before.map LegacyPrefix.byte ++ 0xF3#8 :: (after.map LegacyPrefix.byte ++ encode i ++ rest))
        = .error .repeatPrefix

/-- R77: more than four legacy prefixes, LOCK and repeat prefixes among them, are refused.  That this refusal comes before every other
one, whatever the prefixes are and whatever follows them, is the model's choice (log entry 8). -/
def Obligations.MoreThanFourPrefixesAreRefused : Prop :=
  ∀ (m : Mode) (ps rest : List Byte),
    (∀ b ∈ ps, b ∈ [0x66#8, 0x67#8, 0x26#8, 0x2E#8, 0x36#8, 0x3E#8, 0x64#8, 0x65#8, 0xF0#8, 0xF2#8, 0xF3#8]) →
    4 < ps.length → decode m (ps ++ rest) = .error .tooManyPrefixes

/-- R72, R80: outside 64-bit mode no REX byte is read, both operand numbers are 0 to 7, and so no bytes reach CR8. -/
def Obligations.OutsideLongModeNumbersAreBelowEight : Prop :=
  ∀ (m : Mode) (bs : List Byte) (i : Instr) (rest : List Byte),
    m ≠ .long64 → decode m bs = .ok (i, rest) → i.form.rex = none ∧ i.crNum < 8#4 ∧ i.gpr < 8#4

/-- R73, R75, R76: an instruction written in another form (other prefixes, REX.W, REX.X or ModRM.mod) does the same, but for
the length by which pc advances and, with it, for whether pc overflows (R42); what raises in one form raises in the other, and what is
refused for another reason than an overflow is refused for that reason in the other. -/
def Obligations.IgnoredBitsChangeOnlyTheLength : Prop :=
  ∀ (i : Instr) (g : Form) (s : State),
    (∀ t, exec i s = .next t → s.pcFits g.len = true →
      exec (reform i g) s = .next { t with pc := s.advancedPc g.len }) ∧
    (∀ t, exec i s = .next t → s.pcFits g.len = false → exec (reform i g) s = .refused .pcOverflow) ∧
    (∀ e, exec i s = .fault e → exec (reform i g) s = .fault e) ∧
    (∀ e, exec i s = .refused e → e ≠ .pcOverflow → exec (reform i g) s = .refused e)

/-! ### Steps -/

/-- R158: when the bytes at pc decode to `i` and the schedule (the model's own, log entry 3) lets an instruction run, the step is
`exec i`; a schedule entry that lets it run is used up. -/
def Obligations.StepRunsTheDecodedInstruction : Prop :=
  ∀ (s : State) (i : Instr) (rest : List Byte), decode s.mode s.fetched.1 = .ok (i, rest) →
    (s.env = [] → step s = exec i s) ∧
    (∀ es, s.env = .instr :: es → step s = exec i { s with env := es })

/-- R70, R158: an instruction whose encoding stands in memory at pc, below the top of the address space, is the one the step
runs, whatever stands after it or is unwritten there. -/
def Obligations.StepRunsTheInstructionStoredAtPc : Prop :=
  ∀ (s : State) (i : Instr), s.env = [] → i.wellFormed s.mode = true →
    s.ip + (encode i).length ≤ pcLimit s.mode →
    (∀ k (h : k < (encode i).length), Memory.read1 s.mem (s.ip + k) = some (encode i)[k]) →
    step s = exec i s

/-- R115, R158: an event at the head of the schedule (the model's own, log entry 3) is the step, and is used up; no instruction
runs in that step. -/
def Obligations.StepTakesTheScheduledEvent : Prop :=
  ∀ (s : State) (e : Event) (es : List EnvStep), s.env = .event e :: es → step s = applyEvent e { s with env := es }

/-- R75, R77, R158: bytes at pc that are no MOV CRn end the run in the refusal named for them.  Bytes that run out are the model's
choice: the refusal of R42's overflow at the top of the address space (log entry 15), and the fault named for the byte that nothing has
written (log entry 6). -/
def Obligations.BytesThatDoNotDecodeStopTheStep : Prop :=
  ∀ s : State, (s.env = [] ∨ ∃ es, s.env = .instr :: es) →
    (decode s.mode s.fetched.1 = .error .notAMovCrn → step s = .refused .notAMovCrn) ∧
    (decode s.mode s.fetched.1 = .error .lockPrefix → step s = .refused .lockPrefixOnMovCrn) ∧
    (decode s.mode s.fetched.1 = .error .repeatPrefix → step s = .refused .repeatPrefixOnMovCrn) ∧
    (decode s.mode s.fetched.1 = .error .tooManyPrefixes → step s = .refused .tooManyPrefixes) ∧
    (decode s.mode s.fetched.1 = .error .truncated → s.fetched.2 = .top → step s = .refused .pcOverflow) ∧
    (∀ a, decode s.mode s.fetched.1 = .error .truncated → s.fetched.2 = .unwritten a →
      step s = .fault (.fetchOfUnwrittenByte a))

/-! ### Moves from a control register -/

/-- R86, R88 to R91, R99: the reads of CR0, CR2, CR3 and CR4 complete in every mode that lets them run.  The free half and the flags
are the model's free values (log entry 2), and `modeInput`, which stays as it is, is a field of the model's own (log entry 23). -/
def Obligations.ReadsOfCr0Cr2Cr3Cr4Complete : Prop :=
  ∀ (s : State) (f : Form) (r : Gpr), s.mayRun f.len →
    (∃ t, exec (.movFromCr0 f r) s = .next t ∧ ReadDone s t f.len r s.cr.cr0) ∧
    (∃ t, exec (.movFromCr2 f r) s = .next t ∧ ReadDone s t f.len r s.cr.cr2) ∧
    (∃ t, exec (.movFromCr3 f r) s = .next t ∧ ReadDone s t f.len r s.cr.cr3) ∧
    (∃ t, exec (.movFromCr4 f r) s = .next t ∧ ReadDone s t f.len r s.cr.cr4)

/-- R97, R99: the read of CR8 completes in 64-bit mode, the only mode that has it; all 64 bits are read.  The flags are the model's free
values (log entry 2), and `modeInput`, which stays as it is, is a field of the model's own (log entry 23). -/
def Obligations.ReadOfCr8Completes : Prop :=
  ∀ (s : State) (f : Form) (r : Gpr), s.mode = .long64 → s.mayRun f.len →
    ∃ t, exec (.movFromCr8 f r) s = .next t ∧ ReadDone s t f.len r s.cr.cr8

/-- R88, R91 (with R18, R47): under the invariant a read of CR0 shows ET as 1 in the families that hardwire it, and in 64-bit
mode bits 63:32 of a read CR0 and CR4 are 0. -/
def Obligations.ReadsShowHardwiredAndReservedBits : Prop :=
  ∀ (s : State) (f : Form) (r : Gpr), s.Inv → s.mayRun f.len →
    (∃ t, exec (.movFromCr0 f r) s = .next t ∧
      (etHardwired s.cfg.family = true → (t.getGpr r).getLsbD 4 = true) ∧
      (s.mode = .long64 → upper32 (t.getGpr r) = 0#32)) ∧
    (∃ t, exec (.movFromCr4 f r) s = .next t ∧ (s.mode = .long64 → upper32 (t.getGpr r) = 0#32))

/-! ### Moves to a control register -/

/-- R92 (g), R99: a MOV to CR0 whose value passes (a) to (f) commits it, with bit 4 as R18 says; unless it changes PE or PG, MODE and
CPL stay as they are, and so does `modeInput`, a field of the model's own (log entries 3 and 23; the other case is
`MovToCr0TakesTheEnvironmentsMode`).  For the Pentium family bit 4 counts among the reserved bits of (f) (log entry 4). -/
def Obligations.MovToCr0Commits : Prop :=
  ∀ (s : State) (f : Form) (r : Gpr) (v : Word), v = s.srcValue 0#32 r → s.mayRun f.len →
    upper32 v = 0#32 →
    ¬ (v.getLsbD 31 = true ∧ v.getLsbD 0 = false) →
    ¬ (v.getLsbD 29 = true ∧ v.getLsbD 30 = false) →
    ¬ (s.mode = .long64 ∧ s.cr.cr0.getLsbD 31 = true ∧ v.getLsbD 31 = false) →
    ¬ (s.cr.cr0.getLsbD 31 = false ∧ v.getLsbD 31 = true ∧ s.activationOk = false) →
    (v ^^^ s.cr.cr0) &&& cr0Reserved s.cfg = 0#64 →
    ∃ t, exec (.movToCr0 f r) s = .next t ∧
      LoadDone s t f.len { s.cr with cr0 := if etHardwired s.cfg.family = true then v ||| 0x10#64 else v } ∧
      (v.getLsbD 0 = s.cr.cr0.getLsbD 0 → v.getLsbD 31 = s.cr.cr0.getLsbD 31 → ModeKept s t)

/-- R92 (a), (b): a value with any of bits 63:32 set, or with PG set and PE clear, raises #GP(0), whatever else it asks for. -/
def Obligations.MovToCr0RaisesGp : Prop :=
  ∀ (s : State) (f : Form) (r : Gpr) (v : Word), v = s.srcValue 0#32 r →
    (upper32 v ≠ 0#32 ∨ (v.getLsbD 31 = true ∧ v.getLsbD 0 = false)) →
    exec (.movToCr0 f r) s = .fault (.generalProtection 0)

/-- R92 (c) to (f), R130: a value that does not raise meets the refusals in this order.  For the Pentium
family bit 4 counts among the reserved bits of (f) (log entry 4). -/
def Obligations.MovToCr0RefusesInOrder : Prop :=
  ∀ (s : State) (f : Form) (r : Gpr) (v : Word), v = s.srcValue 0#32 r → (s.mode = .real ∨ s.cpl = 0) →
    upper32 v = 0#32 → ¬ (v.getLsbD 31 = true ∧ v.getLsbD 0 = false) →
    if v.getLsbD 29 = true ∧ v.getLsbD 30 = false then
      exec (.movToCr0 f r) s = .refused .cr0NwWithoutCd
    else if s.mode = .long64 ∧ s.cr.cr0.getLsbD 31 = true ∧ v.getLsbD 31 = false then
      exec (.movToCr0 f r) s = .refused .cr0PgClearedIn64BitMode
    else if s.cr.cr0.getLsbD 31 = false ∧ v.getLsbD 31 = true ∧ s.activationOk = false then
      exec (.movToCr0 f r) s = .refused .cr0PagingEnableConditions
    else (v ^^^ s.cr.cr0) &&& cr0Reserved s.cfg ≠ 0#64 →
      exec (.movToCr0 f r) s = .refused .cr0ReservedBitsChanged

/-- R64, R93, R99: a MOV to CR2 stores whatever value is presented, without any check; R87 gives its upper half outside 64-bit
mode. -/
def Obligations.MovToCr2Completes : Prop :=
  ∀ (s : State) (f : Form) (r : Gpr), s.mayRun f.len →
    ∃ t, exec (.movToCr2 f r) s = .next t ∧
      WriteDone s t f.len { s.cr with cr2 := if s.mode = .long64 then s.getGpr r else join32 s.upper2 (lower32 (s.getGpr r)) }

/-- R64, R94, R99: a MOV to CR3 whose value `v` (R87) has bits 51:40 zero and changes no other reserved bit stores it; the base
address bits are not checked. -/
def Obligations.MovToCr3Completes : Prop :=
  ∀ (s : State) (f : Form) (r : Gpr) (v : Word), v = s.srcValue s.upper3 r → s.mayRun f.len →
    v.extractLsb' 40 12 = 0#12 → (v ^^^ s.cr.cr3) &&& cr3RsvdOther s.cfg = 0#64 →
    ∃ t, exec (.movToCr3 f r) s = .next t ∧ WriteDone s t f.len { s.cr with cr3 := v }

/-- R94 (a), (b): the two refusals of a MOV to CR3, in order. -/
def Obligations.MovToCr3RefusesInOrder : Prop :=
  ∀ (s : State) (f : Form) (r : Gpr) (v : Word), v = s.srcValue s.upper3 r → (s.mode = .real ∨ s.cpl = 0) →
    (v.extractLsb' 40 12 ≠ 0#12 → exec (.movToCr3 f r) s = .refused .cr3Reserved51To40Nonzero) ∧
    (v.extractLsb' 40 12 = 0#12 → (v ^^^ s.cr.cr3) &&& cr3RsvdOther s.cfg ≠ 0#64 →
      exec (.movToCr3 f r) s = .refused .cr3ReservedBitsChanged)

/-- R95, R99: a MOV to CR4 whose value passes (a) to (c) stores it. -/
def Obligations.MovToCr4Completes : Prop :=
  ∀ (s : State) (f : Form) (r : Gpr) (v : Word), v = s.srcValue 0#32 r → s.mayRun f.len →
    upper32 v = 0#32 → (v ^^^ s.cr.cr4) &&& cr4Reserved s.cfg = 0#64 →
    ¬ ((s.mode = .compat ∨ s.mode = .long64) ∧ v.getLsbD 5 ≠ s.cr.cr4.getLsbD 5) →
    ∃ t, exec (.movToCr4 f r) s = .next t ∧ WriteDone s t f.len { s.cr with cr4 := v }

/-- R95 (a) to (c), R130: a nonzero upper half raises #GP(0) whatever else the value asks for; then the two refusals, in
order. -/
def Obligations.MovToCr4RaisesAndRefusesInOrder : Prop :=
  ∀ (s : State) (f : Form) (r : Gpr) (v : Word), v = s.srcValue 0#32 r →
    (upper32 v ≠ 0#32 → exec (.movToCr4 f r) s = .fault (.generalProtection 0)) ∧
    ((s.mode = .real ∨ s.cpl = 0) → upper32 v = 0#32 → (v ^^^ s.cr.cr4) &&& cr4Reserved s.cfg ≠ 0#64 →
      exec (.movToCr4 f r) s = .refused .cr4ReservedBitsChanged) ∧
    ((s.mode = .real ∨ s.cpl = 0) → upper32 v = 0#32 → (v ^^^ s.cr.cr4) &&& cr4Reserved s.cfg = 0#64 →
      (s.mode = .compat ∨ s.mode = .long64) → v.getLsbD 5 ≠ s.cr.cr4.getLsbD 5 →
      exec (.movToCr4 f r) s = .refused .cr4PaeChangedInIa32e)

/-- R96, R99: in 64-bit mode a MOV to CR8 stores a value that has no bit outside the threshold field, and is refused
otherwise. -/
def Obligations.MovToCr8CompletesOrRefuses : Prop :=
  ∀ (s : State) (f : Form) (r : Gpr), s.mode = .long64 → s.mayRun f.len →
    (s.getGpr r &&& ~~~ tprMask s.cfg = 0#64 →
      ∃ t, exec (.movToCr8 f r) s = .next t ∧ WriteDone s t f.len { s.cr with cr8 := s.getGpr r }) ∧
    (s.getGpr r &&& ~~~ tprMask s.cfg ≠ 0#64 → exec (.movToCr8 f r) s = .refused .cr8ReservedBitsNonzero)

/-- R87: what a completed write leaves in CR0, CR2, CR3 and CR4 (CR0 up to ET) for the width in force: the whole source in
64-bit mode; otherwise its low 32 bits, under zeros in CR0, CR4 and bits 63:40 of CR3, and under zeros throughout when
`UPPER32_POLICY` is zero. -/
def Obligations.WidthOfAWriteFollowsTheMode : Prop :=
  ∀ (s t : State) (f : Form) (r : Gpr),
    (exec (.movToCr0 f r) s = .next t →
      t.cr.cr0 ||| 0x10#64 = (if s.mode = .long64 then s.getGpr r else (lower32 (s.getGpr r)).setWidth 64) ||| 0x10#64) ∧
    (exec (.movToCr4 f r) s = .next t →
      t.cr.cr4 = if s.mode = .long64 then s.getGpr r else (lower32 (s.getGpr r)).setWidth 64) ∧
    (exec (.movToCr2 f r) s = .next t →
      (s.mode = .long64 → t.cr.cr2 = s.getGpr r) ∧
      lower32 t.cr.cr2 = lower32 (s.getGpr r) ∧
      (s.mode ≠ .long64 → s.cfg.upper32 = .zero → upper32 t.cr.cr2 = 0#32)) ∧
    (exec (.movToCr3 f r) s = .next t →
      (s.mode = .long64 → t.cr.cr3 = s.getGpr r) ∧
      lower32 t.cr.cr3 = lower32 (s.getGpr r) ∧
      (s.mode ≠ .long64 → t.cr.cr3.extractLsb' 40 24 = 0#24) ∧
      (s.mode ≠ .long64 → s.cfg.upper32 = .zero → upper32 t.cr.cr3 = 0#32))

/-- R102: in 64-bit mode at CPL 0 a write followed by a read of the same register gives the value written, ET reading as 1;
in a 32-bit mode the same holds of bits 31:0.  A write to CR0 can change MODE and CPL with PE or PG (R92, R143), so its clause asks that
the read may run, and for all 64 bits that it runs in 64-bit mode. -/
def Obligations.WriteThenReadReturnsTheValueWritten : Prop :=
  ∀ (s t : State) (f g : Form) (r q : Gpr), (s.mode = .real ∨ s.cpl = 0) → t.pcFits g.len = true →
    (etHardwired s.cfg.family = true → exec (.movToCr0 f r) s = .next t → (t.mode = .real ∨ t.cpl = 0) →
      ∃ u, exec (.movFromCr0 g q) t = .next u ∧
        (s.mode = .long64 → t.mode = .long64 → u.getGpr q = s.getGpr r ||| 0x10#64) ∧
        lower32 (u.getGpr q) = lower32 (s.getGpr r) ||| 0x10#32) ∧
    (exec (.movToCr2 f r) s = .next t →
      ∃ u, exec (.movFromCr2 g q) t = .next u ∧
        (s.mode = .long64 → u.getGpr q = s.getGpr r) ∧ lower32 (u.getGpr q) = lower32 (s.getGpr r)) ∧
    (exec (.movToCr3 f r) s = .next t →
      ∃ u, exec (.movFromCr3 g q) t = .next u ∧
        (s.mode = .long64 → u.getGpr q = s.getGpr r) ∧ lower32 (u.getGpr q) = lower32 (s.getGpr r)) ∧
    (exec (.movToCr4 f r) s = .next t →
      ∃ u, exec (.movFromCr4 g q) t = .next u ∧
        (s.mode = .long64 → u.getGpr q = s.getGpr r) ∧ lower32 (u.getGpr q) = lower32 (s.getGpr r)) ∧
    (s.mode = .long64 → exec (.movToCr8 f r) s = .next t →
      ∃ u, exec (.movFromCr8 g q) t = .next u ∧ u.getGpr q = s.getGpr r)

/-- R92 (corner case), R101: in 64-bit mode, under the invariant, writing back the value just read completes and leaves every
control register as it was; for CR0 provided it does not already hold CD clear with NW set. -/
def Obligations.WritingBackTheValueReadChangesNothing : Prop :=
  ∀ (s t : State) (f g : Form) (r : Gpr), s.Inv → s.mode = .long64 → t.pcFits g.len = true →
    (¬ (s.cr.cr0.getLsbD 29 = true ∧ s.cr.cr0.getLsbD 30 = false) → exec (.movFromCr0 f r) s = .next t →
      ∃ u, exec (.movToCr0 g r) t = .next u ∧ u.cr = s.cr) ∧
    (exec (.movFromCr2 f r) s = .next t → ∃ u, exec (.movToCr2 g r) t = .next u ∧ u.cr = s.cr) ∧
    (exec (.movFromCr3 f r) s = .next t → ∃ u, exec (.movToCr3 g r) t = .next u ∧ u.cr = s.cr) ∧
    (exec (.movFromCr4 f r) s = .next t → ∃ u, exec (.movToCr4 g r) t = .next u ∧ u.cr = s.cr) ∧
    (exec (.movFromCr8 f r) s = .next t → ∃ u, exec (.movToCr8 g r) t = .next u ∧ u.cr = s.cr)

/-! ### Stops common to the instructions -/

/-- R98: a MOV to or from CR1, CR5, CR6, CR7 or CR9 to CR15 is refused by its number in every state, before any privilege
check; nothing is read or written. -/
def Obligations.ReservedNumbersAreRefused : Prop :=
  ∀ (s : State) (f : Form) (r : Gpr),
    exec (.movFromCr1 f r) s = .refused (.reservedControlRegister 1) ∧
    exec (.movFromCr5 f r) s = .refused (.reservedControlRegister 5) ∧
    exec (.movFromCr6 f r) s = .refused (.reservedControlRegister 6) ∧
    exec (.movFromCr7 f r) s = .refused (.reservedControlRegister 7) ∧
    exec (.movFromCr9 f r) s = .refused (.reservedControlRegister 9) ∧
    exec (.movFromCr10 f r) s = .refused (.reservedControlRegister 10) ∧
    exec (.movFromCr11 f r) s = .refused (.reservedControlRegister 11) ∧
    exec (.movFromCr12 f r) s = .refused (.reservedControlRegister 12) ∧
    exec (.movFromCr13 f r) s = .refused (.reservedControlRegister 13) ∧
    exec (.movFromCr14 f r) s = .refused (.reservedControlRegister 14) ∧
    exec (.movFromCr15 f r) s = .refused (.reservedControlRegister 15) ∧
    exec (.movToCr1 f r) s = .refused (.reservedControlRegister 1) ∧
    exec (.movToCr5 f r) s = .refused (.reservedControlRegister 5) ∧
    exec (.movToCr6 f r) s = .refused (.reservedControlRegister 6) ∧
    exec (.movToCr7 f r) s = .refused (.reservedControlRegister 7) ∧
    exec (.movToCr9 f r) s = .refused (.reservedControlRegister 9) ∧
    exec (.movToCr10 f r) s = .refused (.reservedControlRegister 10) ∧
    exec (.movToCr11 f r) s = .refused (.reservedControlRegister 11) ∧
    exec (.movToCr12 f r) s = .refused (.reservedControlRegister 12) ∧
    exec (.movToCr13 f r) s = .refused (.reservedControlRegister 13) ∧
    exec (.movToCr14 f r) s = .refused (.reservedControlRegister 14) ∧
    exec (.movToCr15 f r) s = .refused (.reservedControlRegister 15)

/-- R85 step 2, R121 cause 4: at CPL 1, 2 or 3 outside real mode every MOV to or from a control register that exists raises
#GP(0). -/
def Obligations.PrivilegeViolationRaisesGp : Prop :=
  ∀ (i : Instr) (s : State), hasRegister i.crNum = true → s.mode ≠ .real → s.cpl ≠ 0 →
    exec i s = .fault (.generalProtection 0)

/-- R120, R121, R133: the only fault an instruction raises is #GP(0), and it has one of the four causes. -/
def Obligations.GpHasOneOfItsFourCauses : Prop :=
  ∀ (i : Instr) (s : State) (e : Fault), exec i s = .fault e →
    e = .generalProtection 0 ∧ hasRegister i.crNum = true ∧
    ((s.mode ≠ .real ∧ s.cpl ≠ 0) ∨
      (i.dir = .write ∧ (i.crNum = 0#4 ∨ i.crNum = 4#4) ∧ s.mode = .long64 ∧ upper32 (s.getGpr i.gpr) ≠ 0#32) ∨
      (i.dir = .write ∧ i.crNum = 0#4 ∧ (s.getGpr i.gpr).getLsbD 31 = true ∧ (s.getGpr i.gpr).getLsbD 0 = false))

/-- R42 (D3), R99: an instruction that completes had room for `pc + len`, advances pc by exactly its length, and transfers
control nowhere else; where `pc + len` overflows, none completes. -/
def Obligations.CompletionAdvancesPcByTheLength : Prop :=
  ∀ (i : Instr) (s t : State), exec i s = .next t →
    s.pcFits i.form.len = true ∧ i.form.len = (encode i).length ∧ t.pc = s.advancedPc i.form.len

/-! ### The environment's events -/

/-- R110: with paging enabled, a page fault writes its linear address to CR2, 64 bits in 64-bit mode, otherwise its low 32 bits
under `Upper(2)`, and changes nothing else. -/
def Obligations.PageFaultWritesCr2 : Prop :=
  ∀ (s : State) (la : Word) (es : List EnvStep), s.env = .event (.pageFault la) :: es →
    s.cr.cr0.getLsbD 31 = true →
    ∃ t, step s = .next t ∧
      t.cr.cr2 = (if s.mode = .long64 then la else join32 s.upper2 (lower32 la)) ∧
      t = { s with env := es, cr := { s.cr with cr2 := t.cr.cr2 }, draws := t.draws }

/-- R51, R111: with CR0.PG clear every linear address is its own physical address, whatever CR3 holds, and no page fault can
occur. -/
def Obligations.WithoutPagingAddressesArePhysical : Prop :=
  ∀ s : State, s.cr.cr0.getLsbD 31 = false →
    (∀ la access, s.translate la access = .physical la) ∧
    (∀ la es, s.env = .event (.pageFault la) :: es → ∀ t, step s ≠ .next t)

/-- R53: with CR0.PE clear no translation takes place, whatever PG holds. -/
def Obligations.WithoutPeNoTranslation : Prop :=
  ∀ (s : State) (la : Word) (access : AccessKind),
    s.cr.cr0.getLsbD 0 = false → s.translate la access = .physical la

/-- R112: a task switch sets TS, puts a value into CR3 whose bits 51:40 are 0 and whose other reserved bits are CR3's, and changes
nothing else.  The line of R112 on CR3 is marked as general knowledge (PRESUMED, log entry 14), and that a task switch is an entry of
the schedule is the model's choice (log entry 3). -/
def Obligations.TaskSwitchSetsTs : Prop :=
  ∀ (s : State) (w : Word) (es : List EnvStep), s.env = .event (.taskSwitch w) :: es →
    w.extractLsb' 40 12 = 0#12 → w &&& cr3RsvdOther s.cfg = s.cr.cr3 &&& cr3RsvdOther s.cfg →
    step s = .next { s with env := es, cr := { s.cr with cr0 := s.cr.cr0 ||| 0x8#64, cr3 := w } }

/-- The model's choice (log entry 3): an event in the schedule that R110, R112, R141 or R143 does not let the environment make is
refused.  Of R143, (a) and the end of (c) concern every change of MODE between two instructions, where CR0 does not change; that MODE
agrees with CR0 is the presumption of log entry 9. -/
def Obligations.EventsThatCannotOccurAreRefused : Prop :=
  ∀ (s : State) (es : List EnvStep),
    (∀ la, s.env = .event (.pageFault la) :: es → s.cr.cr0.getLsbD 31 = false → step s = .refused .eventNotEnabled) ∧
    (∀ w, s.env = .event (.taskSwitch w) :: es →
      ¬ (w.extractLsb' 40 12 = 0#12 ∧ w &&& cr3RsvdOther s.cfg = s.cr.cr3 &&& cr3RsvdOther s.cfg) →
      step s = .refused .eventNotEnabled) ∧
    (∀ m cpl, s.env = .event (.setModeCpl m cpl) :: es →
      ((m = .v86 ∧ cpl ≠ 3) ∨
        (m = .real ∧ s.cr.cr0.getLsbD 0 = true) ∨
        (m ≠ .real ∧ s.cr.cr0.getLsbD 0 = false) ∨
        (isIa32e m = true ∧ ¬ (s.cr.cr0.getLsbD 31 = true ∧ s.cr.cr0.getLsbD 0 = true)) ∨
        isIa32e m ≠ isIa32e s.mode ∨
        ¬ (m = .real ↔ s.mode = .real)) →
      step s = .refused .eventNotEnabled)

/-- R137: with the default threshold field, an external interrupt is let through exactly when its class is greater than CR8
bits 3:0, in every mode; what the model records of it is the model's own (log entry 10), and nothing else changes. -/
def Obligations.TprFiltersExternalInterrupts : Prop :=
  ∀ (s : State) (cls : BitVec 4) (es : List EnvStep), s.cfg.tprHi = 3 → s.cfg.tprLo = 0 →
    s.env = .event (.externalInterrupt cls) :: es →
    (s.mayInterrupt cls = true ↔ (s.cr.cr8.extractLsb' 0 4).toNat < cls.toNat) ∧
    step s = .next { s with env := es, admitted := if s.mayInterrupt cls then some cls else s.admitted }

/-- R138: an unmasked x87 FPU error is reported natively with NE set, ignored with NE clear and IGNNE# asserted, and otherwise
asserts FERR# and stops before the next waiting instruction; a masked one does nothing.  How the model records a report is its own
choice (log entry 11). -/
def Obligations.X87ErrorsAreReportedByNe : Prop :=
  ∀ (s : State) (es : List EnvStep),
    (s.env = .event (.x87Error true) :: es →
      (s.cr.cr0.getLsbD 5 = true → step s = .next { s with env := es, x87 := .native }) ∧
      (s.cr.cr0.getLsbD 5 = false → s.ignne = true → step s = .next { s with env := es }) ∧
      (s.cr.cr0.getLsbD 5 = false → s.ignne = false →
        step s = .next { s with env := es, ferr := true, x87 := .stopAtNextWaiting })) ∧
    (s.env = .event (.x87Error false) :: es → step s = .next { s with env := es })

/-- R92, R141 (a), R143 (c): `MODE` and `CPL` change only by an event of the environment or with a MOV to CR0 that changes PE or PG, and
every change keeps virtual-8086 mode at CPL 3, real mode with PE clear and IA-32e mode with PG and PE set (the last two a presumption,
log entry 9).  That the environment's changes are events is the model's own (log entry 3). -/
def Obligations.ModeChangesObeyTheirConstraints : Prop :=
  ∀ s t : State, step s = .next t → (t.mode ≠ s.mode ∨ t.cpl ≠ s.cpl) →
    ((∃ m cpl, s.takes (.setModeCpl m cpl) ∧ t.mode = m ∧ t.cpl = cpl) ∨
      ((∃ f r, s.runs (.movToCr0 f r)) ∧
        (t.cr.cr0.getLsbD 0 ≠ s.cr.cr0.getLsbD 0 ∨ t.cr.cr0.getLsbD 31 ≠ s.cr.cr0.getLsbD 31))) ∧
    (t.mode = .v86 → t.cpl = 3) ∧
    (t.mode = .real ↔ t.cr.cr0.getLsbD 0 = false) ∧
    (isIa32e t.mode = true → t.cr.cr0.getLsbD 31 = true ∧ t.cr.cr0.getLsbD 0 = true)

/-- R143 (a), (c): from a state that meets the invariant (of which R143 (c) is PRESUMED, log entry 9), a step in which `IA32e(MODE)`
differs is a MOV to CR0 that changed PG, and one that enters or leaves real-address mode is a MOV to CR0 that changed PE. -/
def Obligations.OnlyMovToCr0ThatChangesPgAllowsIa32eChange : Prop :=
  ∀ s t : State, s.Inv → step s = .next t →
    (isIa32e t.mode ≠ isIa32e s.mode →
      (∃ f r, s.runs (.movToCr0 f r)) ∧ t.cr.cr0.getLsbD 31 ≠ s.cr.cr0.getLsbD 31) ∧
    (¬ (t.mode = .real ↔ s.mode = .real) →
      (∃ f r, s.runs (.movToCr0 f r)) ∧ t.cr.cr0.getLsbD 0 ≠ s.cr.cr0.getLsbD 0)

/-- R115, R4, R43, R44: the environment's changes of IGNNE#, AC, `PAE_ENABLED`, `IA32E_ACTIVATION_OK` and of the MODE and CPL it wants
change that input and nothing else.  That they are events is the model's choice (log entry 3; R115 lists IGNNE# alone), and the last of
them is a field of the model's own (log entry 23). -/
def Obligations.InputEventsChangeOneInput : Prop :=
  ∀ (s : State) (b : Bool) (p : Option (Mode × Fin 4)) (es : List EnvStep),
    (s.env = .event (.setIgnne b) :: es → step s = .next { s with env := es, ignne := b }) ∧
    (s.env = .event (.setAc b) :: es → step s = .next { s with env := es, ac := b }) ∧
    (s.env = .event (.setPaeEnabled b) :: es → step s = .next { s with env := es, paeEnabled := b }) ∧
    (s.env = .event (.setActivationOk b) :: es → step s = .next { s with env := es, activationOk := b }) ∧
    (s.env = .event (.setModeInput p) :: es → step s = .next { s with env := es, modeInput := p })

/-! ### Invariants and whole-machine rules -/

/-- R151: the state after reset (whose values are the model's, log entries 1 and 5) meets the launch premises. -/
def Obligations.ResetMeetsTheLaunchPremises : Prop := State.reset.Inv

/-- R46 (with R4): reset leaves the control registers at the parameters' values, which by default are those of R46's table; the
other values are the model's (log entries 1 and 5). -/
def Obligations.ResetLeavesTheParameterValues : Prop :=
  (∀ c : Config, (State.resetWith c).cr = ⟨c.resetCr0, c.resetCr2, c.resetCr3, c.resetCr4, c.resetCr8⟩ ∧
    (State.resetWith c).cfg = c) ∧
  State.reset.cr = ⟨0x60000010#64, 0#64, 0#64, 0#64, 0#64⟩ ∧
  State.reset.mode = .real ∧ State.reset.cpl = 0 ∧ State.reset.mem = []

/-- R47, R151, and R141 (a), R143 (c): every step from a state that meets the invariant, an instruction's or the environment's, leads
to one that meets it.  That MODE agrees with CR0 is part of it and a presumption about the environment (log entry 9). -/
def Obligations.EveryStepKeepsTheInvariant : Prop :=
  ∀ s t : State, s.Inv → step s = .next t → t.Inv

/-- R116 (with R6, R110, R112): each control register changes only by its own MOV, CR0 and CR3 also by a task switch, CR2 also by
a page fault.  The premise R116 asks for (log entry 22): no reset, INIT, system-management mode, virtual-machine entry or exit, LMSW or
CLTS acts; the machine has no step for one. -/
def Obligations.OnlyTheNamedWritersChangeControlRegisters : Prop :=
  ∀ s t : State, step s = .next t →
    (t.cr.cr0 ≠ s.cr.cr0 → (∃ f r, s.runs (.movToCr0 f r)) ∨ ∃ w, s.takes (.taskSwitch w)) ∧
    (t.cr.cr2 ≠ s.cr.cr2 → (∃ f r, s.runs (.movToCr2 f r)) ∨ ∃ la, s.takes (.pageFault la)) ∧
    (t.cr.cr3 ≠ s.cr.cr3 → (∃ f r, s.runs (.movToCr3 f r)) ∨ ∃ w, s.takes (.taskSwitch w)) ∧
    (t.cr.cr4 ≠ s.cr.cr4 → ∃ f r, s.runs (.movToCr4 f r)) ∧
    (t.cr.cr8 ≠ s.cr.cr8 → s.mode = .long64 ∧ ∃ f r, s.runs (.movToCr8 f r))

/-- R25, R26, R32, R34, R36 to R39: from a state that meets the invariant no step changes a reserved bit of a control register: the
bits of the masks of R4, CR0[63:32], CR4[63:32], CR3[51:40], CR8 outside the threshold field, and ET where it is hardwired; for every
configuration whose CR0 mask leaves the bits of R14 out.  For the Pentium family ET counts among the reserved bits (log entry 4). -/
def Obligations.ReservedBitsNeverChange : Prop :=
  ∀ s t : State, s.Inv → cr0MaskOk s.cfg = true → step s = .next t →
    t.cr.cr0 &&& cr0Reserved s.cfg = s.cr.cr0 &&& cr0Reserved s.cfg ∧
    t.cr.cr3 &&& cr3RsvdOther s.cfg = s.cr.cr3 &&& cr3RsvdOther s.cfg ∧
    t.cr.cr4 &&& cr4Reserved s.cfg = s.cr.cr4 &&& cr4Reserved s.cfg ∧
    upper32 t.cr.cr0 = upper32 s.cr.cr0 ∧
    upper32 t.cr.cr4 = upper32 s.cr.cr4 ∧
    t.cr.cr3.extractLsb' 40 12 = s.cr.cr3.extractLsb' 40 12 ∧
    t.cr.cr8 &&& ~~~ tprMask s.cfg = s.cr.cr8 &&& ~~~ tprMask s.cfg ∧
    (etHardwired s.cfg.family = true → cr0Et t.cr.cr0 = cr0Et s.cr.cr0)

/-- R4, R41, R43, R60: no step writes memory, nor a parameter, which the model holds in State (log entry 17); general registers, pc and
status flags change only when a MOV CRn runs, and AC only by the environment. -/
def Obligations.StepsWriteNoMemory : Prop :=
  ∀ s t : State, step s = .next t →
    (∀ a, Memory.read1 t.mem a = Memory.read1 s.mem a) ∧ t.mem = s.mem ∧ t.cfg = s.cfg ∧
    ((∃ e, s.takes e) → t.gpr = s.gpr ∧ t.pc = s.pc ∧ t.flags = s.flags) ∧
    (t.ac ≠ s.ac → ∃ b, s.takes (.setAc b))

/-- R40, R85: at CPL 1, 2 or 3 outside real mode an instruction step never completes, and its outcome is the same whatever the
control registers hold: nothing of them reaches the program. -/
def Obligations.UnprivilegedStepRevealsNothing : Prop :=
  ∀ s : State, s.mode ≠ .real → s.cpl ≠ 0 → (s.env = [] ∨ ∃ es, s.env = .instr :: es) →
    (∃ e, ∀ c : CtrlRegs, step { s with cr := c } = .fault e) ∨
    (∃ e, ∀ c : CtrlRegs, step { s with cr := c } = .refused e)

/-! ### The memory system's contract -/

/-- R55: alignment checking is on exactly when AM and AC are set, CPL is 3 and the mode is not real mode.  That compatibility mode and
64-bit mode count as protected mode here R55 marks as general knowledge (PRESUMED, log entry 14). -/
def Obligations.AlignmentCheckingCondition : Prop :=
  ∀ s : State, s.alignmentCheckingOn = true ↔
    s.cr.cr0.getLsbD 18 = true ∧ s.ac = true ∧ s.cpl = 3 ∧
      (s.mode = .prot32 ∨ s.mode = .v86 ∨ s.mode = .compat ∨ s.mode = .long64)

/-- R54: WP set inhibits exactly a supervisor-level write to a user-level read-only page. -/
def Obligations.WriteProtectCondition : Prop :=
  ∀ (s : State) (a : PageAccess), s.writeAllowedByWp a = false ↔
    a.isWrite = true ∧ a.supervisor = true ∧ a.userPage = true ∧ a.readOnly = true ∧ s.cr.cr0.getLsbD 16 = true

/-- R30: the base CR3 designates is 4-KByte aligned; its bits are bits 39:12 of CR3 in 64-bit mode and 31:12 otherwise.  Bits 39:12
are what R30 itself derives from R32 and R34 (DEDUCED, log entry 16). -/
def Obligations.PageDirectoryBaseIsAligned : Prop :=
  ∀ (m : Mode) (v : Word), (pdBase m v).toNat % 4096 = 0 ∧
    (pdBase .long64 v).toNat = v.toNat / 4096 % 2 ^ 28 * 4096 ∧
    (m ≠ .long64 → (pdBase m v).toNat = v.toNat / 4096 % 2 ^ 20 * 4096)

/-- R61: a little-endian store of `n` bytes that lies in the address space is read back, reading `n` bytes from the same address,
and leaves every other byte alone. -/
def Obligations.StoreThenLoadIsLittleEndian : Prop :=
  ∀ (m : List Host.Cell) (a n v : Nat), a + n ≤ 2 ^ 64 →
    memRead (memWrite m a n v) a n = some (v % 256 ^ n) ∧
    (∀ k, k < n → Memory.read1 (memWrite m a n v) (a + k) = some (BitVec.ofNat 8 (v / 256 ^ k))) ∧
    (∀ b, (b < a ∨ a + n ≤ b) → Memory.read1 (memWrite m a n v) b = Memory.read1 m b)

/-! ### Mode changes, and the masks in every state -/

/-- R92, R141 (a), R143: a MOV to CR0 that changes PE or PG takes the environment's next MODE and CPL with it: they agree with the new
CR0 (R143 (c), PRESUMED, log entry 9), and they are the ones the environment wants wherever R141 and R143 allow these, which are those
in force where it wants no other.  How the environment's wish is held and used up is the model's choice (log entry 23). -/
def Obligations.MovToCr0TakesTheEnvironmentsMode : Prop :=
  ∀ (s t : State) (f : Form) (r : Gpr), exec (.movToCr0 f r) s = .next t →
    (t.cr.cr0.getLsbD 0 ≠ s.cr.cr0.getLsbD 0 ∨ t.cr.cr0.getLsbD 31 ≠ s.cr.cr0.getLsbD 31) →
    t.modeInput = none ∧
    (t.mode = .v86 → t.cpl = 3) ∧
    (t.mode = .real ↔ t.cr.cr0.getLsbD 0 = false) ∧
    (isIa32e t.mode = true → t.cr.cr0.getLsbD 31 = true ∧ t.cr.cr0.getLsbD 0 = true) ∧
    (∀ m cpl, s.modeInput = some (m, cpl) → s.modeAllowed t.cr.cr0 m cpl = true → t.mode = m ∧ t.cpl = cpl) ∧
    (s.modeInput = none → s.modeAllowed t.cr.cr0 s.mode s.cpl = true → t.mode = s.mode ∧ t.cpl = s.cpl)

/-- R115, R141 (a), R143: between two instructions the environment may change MODE and CPL to any that keep virtual-8086 mode at CPL 3,
agree with CR0 (PRESUMED, log entry 9), and leave `IA32e(MODE)` and real-address mode as they are; nothing else changes.  That the
change is an event is the model's choice (log entry 3). -/
def Obligations.ModeEventsTakeEffect : Prop :=
  ∀ (s : State) (m : Mode) (cpl : Fin 4) (es : List EnvStep), s.env = .event (.setModeCpl m cpl) :: es →
    (m = .v86 → cpl = 3) →
    (m = .real ↔ s.cr.cr0.getLsbD 0 = false) →
    (isIa32e m = true → s.cr.cr0.getLsbD 31 = true ∧ s.cr.cr0.getLsbD 0 = true) →
    isIa32e m = isIa32e s.mode → (m = .real ↔ s.mode = .real) →
    step s = .next { s with env := es, mode := m, cpl := cpl }

/-- R26, R34, R37, R39: no step, from any state, changes a bit of the masks of R4 in CR0, CR3 or CR4, for every configuration whose CR0
mask leaves the bits of R14 out.  For the Pentium family ET counts among the bits of the CR0 mask (log entry 4). -/
def Obligations.MaskedBitsNeverChange : Prop :=
  ∀ s t : State, cr0MaskOk s.cfg = true → step s = .next t →
    t.cr.cr0 &&& cr0Reserved s.cfg = s.cr.cr0 &&& cr0Reserved s.cfg ∧
    t.cr.cr3 &&& cr3RsvdOther s.cfg = s.cr.cr3 &&& cr3RsvdOther s.cfg ∧
    t.cr.cr4 &&& cr4Reserved s.cfg = s.cr.cr4 &&& cr4Reserved s.cfg
end

