-- ==== Sys2Proof/Laws/PerInstr.lean ====
section
/-!
SUPPORT. The families of lemmas made per instruction: an instruction is rebuilt from its fields, and its encoding is as long as
R77 says.
-/

namespace Sys2Proof.Laws

/-- The fields of an instruction rebuild it (R72, R78). -/
def FieldsRebuild.Statement (i : Instr) : Prop := Instr.ofFields i.dir i.crNum i.form i.gpr = i

/-- An encoding has `len` bytes (R77). -/
def EncodeLength.Statement (i : Instr) : Prop := (encode i).length = i.form.len

/-- The length of an encoding is a matter of the form alone (R77). -/
theorem encode_length (i : Instr) : (encode i).length = i.form.len := by
  unfold encode Form.len rexBytes
  cases i.form.rex <;> simp

theorem FieldsRebuild.movFromCr0 (f : Form) (r : Gpr) : FieldsRebuild.Statement (.movFromCr0 f r) := rfl
theorem FieldsRebuild.movFromCr2 (f : Form) (r : Gpr) : FieldsRebuild.Statement (.movFromCr2 f r) := rfl
theorem FieldsRebuild.movFromCr3 (f : Form) (r : Gpr) : FieldsRebuild.Statement (.movFromCr3 f r) := rfl
theorem FieldsRebuild.movFromCr4 (f : Form) (r : Gpr) : FieldsRebuild.Statement (.movFromCr4 f r) := rfl
theorem FieldsRebuild.movFromCr8 (f : Form) (r : Gpr) : FieldsRebuild.Statement (.movFromCr8 f r) := rfl
theorem FieldsRebuild.movToCr0 (f : Form) (r : Gpr) : FieldsRebuild.Statement (.movToCr0 f r) := rfl
theorem FieldsRebuild.movToCr2 (f : Form) (r : Gpr) : FieldsRebuild.Statement (.movToCr2 f r) := rfl
theorem FieldsRebuild.movToCr3 (f : Form) (r : Gpr) : FieldsRebuild.Statement (.movToCr3 f r) := rfl
theorem FieldsRebuild.movToCr4 (f : Form) (r : Gpr) : FieldsRebuild.Statement (.movToCr4 f r) := rfl
theorem FieldsRebuild.movToCr8 (f : Form) (r : Gpr) : FieldsRebuild.Statement (.movToCr8 f r) := rfl
theorem FieldsRebuild.movFromCr1 (f : Form) (r : Gpr) : FieldsRebuild.Statement (.movFromCr1 f r) := rfl
theorem FieldsRebuild.movFromCr5 (f : Form) (r : Gpr) : FieldsRebuild.Statement (.movFromCr5 f r) := rfl
theorem FieldsRebuild.movFromCr6 (f : Form) (r : Gpr) : FieldsRebuild.Statement (.movFromCr6 f r) := rfl
theorem FieldsRebuild.movFromCr7 (f : Form) (r : Gpr) : FieldsRebuild.Statement (.movFromCr7 f r) := rfl
theorem FieldsRebuild.movFromCr9 (f : Form) (r : Gpr) : FieldsRebuild.Statement (.movFromCr9 f r) := rfl
theorem FieldsRebuild.movFromCr10 (f : Form) (r : Gpr) : FieldsRebuild.Statement (.movFromCr10 f r) := rfl
theorem FieldsRebuild.movFromCr11 (f : Form) (r : Gpr) : FieldsRebuild.Statement (.movFromCr11 f r) := rfl
theorem FieldsRebuild.movFromCr12 (f : Form) (r : Gpr) : FieldsRebuild.Statement (.movFromCr12 f r) := rfl
theorem FieldsRebuild.movFromCr13 (f : Form) (r : Gpr) : FieldsRebuild.Statement (.movFromCr13 f r) := rfl
theorem FieldsRebuild.movFromCr14 (f : Form) (r : Gpr) : FieldsRebuild.Statement (.movFromCr14 f r) := rfl
theorem FieldsRebuild.movFromCr15 (f : Form) (r : Gpr) : FieldsRebuild.Statement (.movFromCr15 f r) := rfl
theorem FieldsRebuild.movToCr1 (f : Form) (r : Gpr) : FieldsRebuild.Statement (.movToCr1 f r) := rfl
theorem FieldsRebuild.movToCr5 (f : Form) (r : Gpr) : FieldsRebuild.Statement (.movToCr5 f r) := rfl
theorem FieldsRebuild.movToCr6 (f : Form) (r : Gpr) : FieldsRebuild.Statement (.movToCr6 f r) := rfl
theorem FieldsRebuild.movToCr7 (f : Form) (r : Gpr) : FieldsRebuild.Statement (.movToCr7 f r) := rfl
theorem FieldsRebuild.movToCr9 (f : Form) (r : Gpr) : FieldsRebuild.Statement (.movToCr9 f r) := rfl
theorem FieldsRebuild.movToCr10 (f : Form) (r : Gpr) : FieldsRebuild.Statement (.movToCr10 f r) := rfl
theorem FieldsRebuild.movToCr11 (f : Form) (r : Gpr) : FieldsRebuild.Statement (.movToCr11 f r) := rfl
theorem FieldsRebuild.movToCr12 (f : Form) (r : Gpr) : FieldsRebuild.Statement (.movToCr12 f r) := rfl
theorem FieldsRebuild.movToCr13 (f : Form) (r : Gpr) : FieldsRebuild.Statement (.movToCr13 f r) := rfl
theorem FieldsRebuild.movToCr14 (f : Form) (r : Gpr) : FieldsRebuild.Statement (.movToCr14 f r) := rfl
theorem FieldsRebuild.movToCr15 (f : Form) (r : Gpr) : FieldsRebuild.Statement (.movToCr15 f r) := rfl

theorem EncodeLength.movFromCr0 (f : Form) (r : Gpr) : EncodeLength.Statement (.movFromCr0 f r) := encode_length _
theorem EncodeLength.movFromCr2 (f : Form) (r : Gpr) : EncodeLength.Statement (.movFromCr2 f r) := encode_length _
theorem EncodeLength.movFromCr3 (f : Form) (r : Gpr) : EncodeLength.Statement (.movFromCr3 f r) := encode_length _
theorem EncodeLength.movFromCr4 (f : Form) (r : Gpr) : EncodeLength.Statement (.movFromCr4 f r) := encode_length _
theorem EncodeLength.movFromCr8 (f : Form) (r : Gpr) : EncodeLength.Statement (.movFromCr8 f r) := encode_length _
theorem EncodeLength.movToCr0 (f : Form) (r : Gpr) : EncodeLength.Statement (.movToCr0 f r) := encode_length _
theorem EncodeLength.movToCr2 (f : Form) (r : Gpr) : EncodeLength.Statement (.movToCr2 f r) := encode_length _
theorem EncodeLength.movToCr3 (f : Form) (r : Gpr) : EncodeLength.Statement (.movToCr3 f r) := encode_length _
theorem EncodeLength.movToCr4 (f : Form) (r : Gpr) : EncodeLength.Statement (.movToCr4 f r) := encode_length _
theorem EncodeLength.movToCr8 (f : Form) (r : Gpr) : EncodeLength.Statement (.movToCr8 f r) := encode_length _
theorem EncodeLength.movFromCr1 (f : Form) (r : Gpr) : EncodeLength.Statement (.movFromCr1 f r) := encode_length _
theorem EncodeLength.movFromCr5 (f : Form) (r : Gpr) : EncodeLength.Statement (.movFromCr5 f r) := encode_length _
theorem EncodeLength.movFromCr6 (f : Form) (r : Gpr) : EncodeLength.Statement (.movFromCr6 f r) := encode_length _
theorem EncodeLength.movFromCr7 (f : Form) (r : Gpr) : EncodeLength.Statement (.movFromCr7 f r) := encode_length _
theorem EncodeLength.movFromCr9 (f : Form) (r : Gpr) : EncodeLength.Statement (.movFromCr9 f r) := encode_length _
theorem EncodeLength.movFromCr10 (f : Form) (r : Gpr) : EncodeLength.Statement (.movFromCr10 f r) := encode_length _
theorem EncodeLength.movFromCr11 (f : Form) (r : Gpr) : EncodeLength.Statement (.movFromCr11 f r) := encode_length _
theorem EncodeLength.movFromCr12 (f : Form) (r : Gpr) : EncodeLength.Statement (.movFromCr12 f r) := encode_length _
theorem EncodeLength.movFromCr13 (f : Form) (r : Gpr) : EncodeLength.Statement (.movFromCr13 f r) := encode_length _
theorem EncodeLength.movFromCr14 (f : Form) (r : Gpr) : EncodeLength.Statement (.movFromCr14 f r) := encode_length _
theorem EncodeLength.movFromCr15 (f : Form) (r : Gpr) : EncodeLength.Statement (.movFromCr15 f r) := encode_length _
theorem EncodeLength.movToCr1 (f : Form) (r : Gpr) : EncodeLength.Statement (.movToCr1 f r) := encode_length _
theorem EncodeLength.movToCr5 (f : Form) (r : Gpr) : EncodeLength.Statement (.movToCr5 f r) := encode_length _
theorem EncodeLength.movToCr6 (f : Form) (r : Gpr) : EncodeLength.Statement (.movToCr6 f r) := encode_length _
theorem EncodeLength.movToCr7 (f : Form) (r : Gpr) : EncodeLength.Statement (.movToCr7 f r) := encode_length _
theorem EncodeLength.movToCr9 (f : Form) (r : Gpr) : EncodeLength.Statement (.movToCr9 f r) := encode_length _
theorem EncodeLength.movToCr10 (f : Form) (r : Gpr) : EncodeLength.Statement (.movToCr10 f r) := encode_length _
theorem EncodeLength.movToCr11 (f : Form) (r : Gpr) : EncodeLength.Statement (.movToCr11 f r) := encode_length _
theorem EncodeLength.movToCr12 (f : Form) (r : Gpr) : EncodeLength.Statement (.movToCr12 f r) := encode_length _
theorem EncodeLength.movToCr13 (f : Form) (r : Gpr) : EncodeLength.Statement (.movToCr13 f r) := encode_length _
theorem EncodeLength.movToCr14 (f : Form) (r : Gpr) : EncodeLength.Statement (.movToCr14 f r) := encode_length _
theorem EncodeLength.movToCr15 (f : Form) (r : Gpr) : EncodeLength.Statement (.movToCr15 f r) := encode_length _

end Sys2Proof.Laws
end

