-- ==== Sys2Proof/Laws/Decode.lean ====
section
/-!
SUPPORT. The parts of the decoder and of the encoder, each said once: prefixes, the REX byte, the three fixed bytes, the two
operand numbers.
-/

namespace Sys2Proof

/-! ### Prefixes (R75, R77) -/

/-- The byte of an ignored prefix is read as that prefix. -/
@[simp] theorem PrefixByte.ofByte_byte (p : LegacyPrefix) : PrefixByte.ofByte p.byte = some (.ignored p) := by
  cases p <;> rfl

/-- A byte read as an ignored prefix is that prefix's byte. -/
theorem PrefixByte.byte_of_ofByte : ∀ (b : Byte) (p : LegacyPrefix), PrefixByte.ofByte b = some (.ignored p) → b = p.byte := by
  intro b p h
  unfold PrefixByte.ofByte at h
  split at h <;>
    first
    | (obtain rfl := PrefixByte.ignored.inj (Option.some.inj h); exact BitVec.eq_of_toNat_eq ‹_›)
    | exact nomatch h

/-- Ignored prefixes in front are taken off, all of them. -/
theorem takePrefixes_map (ps : List LegacyPrefix) (bs : List Byte) :
    takePrefixes (ps.map LegacyPrefix.byte ++ bs) =
      (ps.map PrefixByte.ignored ++ (takePrefixes bs).1, (takePrefixes bs).2) := by
  induction ps with
  | nil => rfl
  | cons p ps ih => simp [takePrefixes, ih]

/-- Bytes that begin with no prefix stay whole. -/
theorem takePrefixes_of_none (b : Byte) (bs : List Byte) (h : PrefixByte.ofByte b = none) :
    takePrefixes (b :: bs) = ([], b :: bs) := by
  simp [takePrefixes, h]

@[simp] theorem ignoredOnly_map (ps : List LegacyPrefix) : ignoredOnly (ps.map PrefixByte.ignored) = ps := by
  induction ps with
  | nil => rfl
  | cons p ps ih => simp [ignoredOnly, ih]

/-- Prefix bytes without LOCK and repeat are the bytes of the ignored ones, in order, and as many. -/
theorem takePrefixes_spec (bs : List Byte) (hl : (takePrefixes bs).1.contains .lock = false)
    (hr : (takePrefixes bs).1.contains .repeated = false) :
    bs = (ignoredOnly (takePrefixes bs).1).map LegacyPrefix.byte ++ (takePrefixes bs).2 ∧
      (ignoredOnly (takePrefixes bs).1).length = (takePrefixes bs).1.length := by
  induction bs with
  | nil => exact ⟨rfl, rfl⟩
  | cons b bs ih =>
    unfold takePrefixes at hl hr ⊢
    cases h : PrefixByte.ofByte b with
    | none => exact ⟨rfl, rfl⟩
    | some p =>
      simp only [h, List.contains_cons, Bool.or_eq_false_iff] at hl hr ⊢
      obtain ⟨e, n⟩ := ih hl.2 hr.2
      cases p with
      | ignored p =>
        have hb := PrefixByte.byte_of_ofByte b p h
        simp only [ignoredOnly, List.map_cons, List.cons_append, List.length_cons, n]
        exact ⟨by rw [← e, hb], trivial⟩
      | lock => exact absurd hl.1 (by decide)
      | repeated => exact absurd hr.1 (by decide)

/-! ### The REX byte (R70, R71) -/

@[simp] theorem rexByte_isRex (rb : RexBits) (r b : Bool) : isRex (rexByte rb r b) = true := by
  obtain ⟨w, x⟩ := rb; revert w x r b; decide

@[simp] theorem rexByte_notPrefix (rb : RexBits) (r b : Bool) : PrefixByte.ofByte (rexByte rb r b) = none := by
  obtain ⟨w, x⟩ := rb; revert w x r b; decide

@[simp] theorem rexByte_bits (rb : RexBits) (r b : Bool) : RexBits.ofByte (rexByte rb r b) = rb := by
  obtain ⟨w, x⟩ := rb; revert w x r b; decide

@[simp] theorem rexByte_r (rb : RexBits) (r b : Bool) : rexR (some (rexByte rb r b)) = r := by
  obtain ⟨w, x⟩ := rb; revert w x r b; decide

@[simp] theorem rexByte_b (rb : RexBits) (r b : Bool) : rexB (some (rexByte rb r b)) = b := by
  obtain ⟨w, x⟩ := rb; revert w x r b; decide

/-- A REX byte is made of its four bits. -/
theorem rexByte_of_isRex : ∀ b : Byte, isRex b = true → rexByte (RexBits.ofByte b) (b.getLsbD 2) (b.getLsbD 0) = b := by
  decide

/-! ### ModRM and the operand numbers (R71, R72) -/

@[simp] theorem modrmByte_mod : ∀ (mod : BitVec 2) (n : BitVec 4) (r : Gpr), (modrmByte mod n r).extractLsb' 6 2 = mod := by
  decide

@[simp] theorem modrmByte_reg : ∀ (mod : BitVec 2) (n : BitVec 4) (r : Gpr),
    (modrmByte mod n r).extractLsb' 3 3 = n.extractLsb' 0 3 := by decide

@[simp] theorem modrmByte_rm : ∀ (mod : BitVec 2) (n : BitVec 4) (r : Gpr),
    (modrmByte mod n r).extractLsb' 0 3 = r.extractLsb' 0 3 := by decide

/-- A ModRM byte is made of its three fields. -/
theorem modrmByte_of_fields : ∀ (x : Byte) (n : BitVec 4) (r : Gpr), n.extractLsb' 0 3 = x.extractLsb' 3 3 →
    r.extractLsb' 0 3 = x.extractLsb' 0 3 → modrmByte (x.extractLsb' 6 2) n r = x := by
  intro x n r hn hr
  have h : ∀ x : Byte, (x.extractLsb' 6 2 ++ x.extractLsb' 3 3 ++ x.extractLsb' 0 3 : BitVec 8) = x := by decide
  rw [modrmByte, hn, hr]
  exact h x

/-- A number is its high bit over its low three. -/
@[simp] theorem joinNumber_split : ∀ n : BitVec 4, joinNumber (n.getLsbD 3) (n.extractLsb' 0 3) = n := by decide

/-- A number below 8 is its low three bits under a zero. -/
theorem joinNumber_low : ∀ n : BitVec 4, n < 8#4 → joinNumber false (n.extractLsb' 0 3) = n := by decide

@[simp] theorem joinNumber_getLsbD : ∀ (b : Bool) (m : BitVec 3), (joinNumber b m).getLsbD 3 = b := by decide

@[simp] theorem joinNumber_extract : ∀ (b : Bool) (m : BitVec 3), (joinNumber b m).extractLsb' 0 3 = m := by decide

/-- Without a REX bit a number is below 8 (R72). -/
theorem joinNumber_lt : ∀ m : BitVec 3, joinNumber false m < 8#4 := by decide

/-! ### The fields of an instruction (R78) -/

/-- `ofFields` gives the instruction with exactly these fields. -/
theorem Instr.fields_ofFields (d : Dir) (n : BitVec 4) (f : Form) (r : Gpr) : (Instr.ofFields d n f r).fields = (d, n, f, r) := by
  obtain ⟨⟨k, hk⟩⟩ := n
  have hk : k < 16 := hk
  cases d <;> interval_cases k <;> rfl

@[simp] theorem Instr.dir_ofFields (d : Dir) (n : BitVec 4) (f : Form) (r : Gpr) : (Instr.ofFields d n f r).dir = d := by
  rw [Instr.dir, Instr.fields_ofFields]

@[simp] theorem Instr.crNum_ofFields (d : Dir) (n : BitVec 4) (f : Form) (r : Gpr) : (Instr.ofFields d n f r).crNum = n := by
  rw [Instr.crNum, Instr.fields_ofFields]

@[simp] theorem Instr.form_ofFields (d : Dir) (n : BitVec 4) (f : Form) (r : Gpr) : (Instr.ofFields d n f r).form = f := by
  rw [Instr.form, Instr.fields_ofFields]

@[simp] theorem Instr.gpr_ofFields (d : Dir) (n : BitVec 4) (f : Form) (r : Gpr) : (Instr.ofFields d n f r).gpr = r := by
  rw [Instr.gpr, Instr.fields_ofFields]

/-- Every instruction is rebuilt from its fields. -/
theorem Instr.ofFields_fields (i : Instr) : Instr.ofFields i.dir i.crNum i.form i.gpr = i := by
  cases i <;> rfl

end Sys2Proof
end

