-- ==== Sys2Proof/Laws/Modes.lean ====
section
/-!
SUPPORT. What the constraints on MODE and CPL say, and all that the MODE and CPL after a MOV to CR0 can be.
-/

namespace Sys2Proof.Machine

theorem modeCplOk_iff (m : Mode) (cpl : Fin 4) : modeCplOk m cpl = true ↔ (m = .v86 → cpl = 3) := by
  unfold modeCplOk; cases m <;> simp

theorem modeCr0Ok_iff (m : Mode) (v : Word) :
    modeCr0Ok m v = true ↔ (m = .real ↔ cr0Pe v = false) ∧ (isIa32e m = true → cr0Pg v = true ∧ cr0Pe v = true) := by
  unfold modeCr0Ok isIa32e
  cases m <;> cases cr0Pe v <;> cases cr0Pg v <;> decide

theorem State.modeAllowed_iff (s : State) (v : Word) (m : Mode) (cpl : Fin 4) :
    s.modeAllowed v m cpl = true ↔
      modeCplOk m cpl = true ∧ modeCr0Ok m v = true ∧
        (isIa32e m = isIa32e s.mode ∨ cr0Pg v ≠ cr0Pg s.cr.cr0) ∧
        ((m = .real ↔ s.mode = .real) ∨ cr0Pe v ≠ cr0Pe s.cr.cr0) := by
  have real : ((m == .real) = (s.mode == .real)) ↔ (m = .real ↔ s.mode = .real) := by
    cases m <;> cases s.mode <;> decide
  simp only [State.modeAllowed, Bool.and_eq_true, Bool.or_eq_true, beq_iff_eq, bne_iff_ne, real, and_assoc]

/-- Without an allowed wish of the environment the next MODE is one of three: real-address mode with PE clear, an allowed one, or
protected mode. -/
theorem State.nextMode_cases (s : State) (v : Word) :
    s.modeAllowed v (s.nextMode v).1 (s.nextMode v).2 = true ∨
      (cr0Pe v = false ∧ s.nextMode v = (.real, s.cpl)) ∨ (cr0Pe v = true ∧ s.nextMode v = (.prot32, s.cpl)) := by
  unfold State.nextMode
  split
  · exact .inl ‹_›
  · split
    · exact .inr (.inl ⟨‹_›, rfl⟩)
    · split
      · exact .inl ‹_›
      · exact .inr (.inr ⟨by simpa using ‹¬ cr0Pe v = false›, rfl⟩)

/-- The next MODE and CPL agree with each other and with the new CR0 (R141 (a), R143 (c)). -/
theorem State.nextMode_ok (s : State) (v : Word) :
    modeCplOk (s.nextMode v).1 (s.nextMode v).2 = true ∧ modeCr0Ok (s.nextMode v).1 v = true := by
  rcases s.nextMode_cases v with h | ⟨hp, h⟩ | ⟨hp, h⟩
  · exact ⟨((s.modeAllowed_iff ..).mp h).1, ((s.modeAllowed_iff ..).mp h).2.1⟩
  · rw [h]; exact ⟨rfl, by rw [modeCr0Ok_iff]; simp [hp, isIa32e]⟩
  · rw [h]; exact ⟨rfl, by rw [modeCr0Ok_iff]; simp [hp, isIa32e]⟩

/-- Where MODE agrees with CR0 before, and PG is not set without PE after, the next MODE is always one that R141 and R143 allow. -/
theorem State.nextMode_allowed (s : State) (v : Word) (h : modeCr0Ok s.mode s.cr.cr0 = true)
    (hv : cr0Pg v = true → cr0Pe v = true) (hc : s.changesPeOrPg v = true) :
    s.modeAllowed v (s.nextMode v).1 (s.nextMode v).2 = true := by
  rcases s.nextMode_cases v with ha | ⟨hp, e⟩ | ⟨hp, e⟩
  · exact ha
  all_goals
    rw [e, State.modeAllowed_iff, modeCr0Ok_iff]
    clear e
    rw [modeCr0Ok_iff] at h
    simp only [State.changesPeOrPg, Bool.or_eq_true, bne_iff_ne] at hc
    obtain ⟨h1, h2⟩ := h
    refine ⟨rfl, ?_⟩
    revert h1 h2 hc hv hp
    generalize cr0Pe v = pe', cr0Pg v = pg', cr0Pe s.cr.cr0 = pe, cr0Pg s.cr.cr0 = pg, s.mode = m
    dsimp only
    cases m <;> revert pe' pg' pe pg <;> decide

end Sys2Proof.Machine
end

