-- ==== Sys2Proof/Laws/State.lean ====
section
/-!
SUPPORT. One lemma per field per update of the state, each true by definition.
-/

namespace Sys2Proof.Machine

/-! ### `setGpr` -/

@[simp] theorem State.setGpr_cr (s : State) (r : Gpr) (v : Word) : (s.setGpr r v).cr = s.cr := rfl
@[simp] theorem State.setGpr_gpr (s : State) (r : Gpr) (v : Word) : (s.setGpr r v).gpr = s.gpr.set r.toNat v r.isLt := rfl
@[simp] theorem State.setGpr_pc (s : State) (r : Gpr) (v : Word) : (s.setGpr r v).pc = s.pc := rfl
@[simp] theorem State.setGpr_flags (s : State) (r : Gpr) (v : Word) : (s.setGpr r v).flags = s.flags := rfl
@[simp] theorem State.setGpr_ac (s : State) (r : Gpr) (v : Word) : (s.setGpr r v).ac = s.ac := rfl
@[simp] theorem State.setGpr_mode (s : State) (r : Gpr) (v : Word) : (s.setGpr r v).mode = s.mode := rfl
@[simp] theorem State.setGpr_cpl (s : State) (r : Gpr) (v : Word) : (s.setGpr r v).cpl = s.cpl := rfl
@[simp] theorem State.setGpr_activationOk (s : State) (r : Gpr) (v : Word) : (s.setGpr r v).activationOk = s.activationOk := rfl
@[simp] theorem State.setGpr_paeEnabled (s : State) (r : Gpr) (v : Word) : (s.setGpr r v).paeEnabled = s.paeEnabled := rfl
@[simp] theorem State.setGpr_ignne (s : State) (r : Gpr) (v : Word) : (s.setGpr r v).ignne = s.ignne := rfl
@[simp] theorem State.setGpr_ferr (s : State) (r : Gpr) (v : Word) : (s.setGpr r v).ferr = s.ferr := rfl
@[simp] theorem State.setGpr_x87 (s : State) (r : Gpr) (v : Word) : (s.setGpr r v).x87 = s.x87 := rfl
@[simp] theorem State.setGpr_mem (s : State) (r : Gpr) (v : Word) : (s.setGpr r v).mem = s.mem := rfl
@[simp] theorem State.setGpr_env (s : State) (r : Gpr) (v : Word) : (s.setGpr r v).env = s.env := rfl
@[simp] theorem State.setGpr_modeInput (s : State) (r : Gpr) (v : Word) : (s.setGpr r v).modeInput = s.modeInput := rfl
@[simp] theorem State.setGpr_admitted (s : State) (r : Gpr) (v : Word) : (s.setGpr r v).admitted = s.admitted := rfl
@[simp] theorem State.setGpr_draws (s : State) (r : Gpr) (v : Word) : (s.setGpr r v).draws = s.draws := rfl
@[simp] theorem State.setGpr_cfg (s : State) (r : Gpr) (v : Word) : (s.setGpr r v).cfg = s.cfg := rfl

/-! ### `setCr0` -/

@[simp] theorem State.setCr0_cr (s : State) (v : Word) : (s.setCr0 v).cr = { s.cr with cr0 := v } := rfl
@[simp] theorem State.setCr0_gpr (s : State) (v : Word) : (s.setCr0 v).gpr = s.gpr := rfl
@[simp] theorem State.setCr0_pc (s : State) (v : Word) : (s.setCr0 v).pc = s.pc := rfl
@[simp] theorem State.setCr0_flags (s : State) (v : Word) : (s.setCr0 v).flags = s.flags := rfl
@[simp] theorem State.setCr0_ac (s : State) (v : Word) : (s.setCr0 v).ac = s.ac := rfl
@[simp] theorem State.setCr0_mode (s : State) (v : Word) : (s.setCr0 v).mode = s.mode := rfl
@[simp] theorem State.setCr0_cpl (s : State) (v : Word) : (s.setCr0 v).cpl = s.cpl := rfl
@[simp] theorem State.setCr0_activationOk (s : State) (v : Word) : (s.setCr0 v).activationOk = s.activationOk := rfl
@[simp] theorem State.setCr0_paeEnabled (s : State) (v : Word) : (s.setCr0 v).paeEnabled = s.paeEnabled := rfl
@[simp] theorem State.setCr0_ignne (s : State) (v : Word) : (s.setCr0 v).ignne = s.ignne := rfl
@[simp] theorem State.setCr0_ferr (s : State) (v : Word) : (s.setCr0 v).ferr = s.ferr := rfl
@[simp] theorem State.setCr0_x87 (s : State) (v : Word) : (s.setCr0 v).x87 = s.x87 := rfl
@[simp] theorem State.setCr0_mem (s : State) (v : Word) : (s.setCr0 v).mem = s.mem := rfl
@[simp] theorem State.setCr0_env (s : State) (v : Word) : (s.setCr0 v).env = s.env := rfl
@[simp] theorem State.setCr0_modeInput (s : State) (v : Word) : (s.setCr0 v).modeInput = s.modeInput := rfl
@[simp] theorem State.setCr0_admitted (s : State) (v : Word) : (s.setCr0 v).admitted = s.admitted := rfl
@[simp] theorem State.setCr0_draws (s : State) (v : Word) : (s.setCr0 v).draws = s.draws := rfl
@[simp] theorem State.setCr0_cfg (s : State) (v : Word) : (s.setCr0 v).cfg = s.cfg := rfl

/-! ### `setCr2` -/

@[simp] theorem State.setCr2_cr (s : State) (v : Word) : (s.setCr2 v).cr = { s.cr with cr2 := v } := rfl
@[simp] theorem State.setCr2_gpr (s : State) (v : Word) : (s.setCr2 v).gpr = s.gpr := rfl
@[simp] theorem State.setCr2_pc (s : State) (v : Word) : (s.setCr2 v).pc = s.pc := rfl
@[simp] theorem State.setCr2_flags (s : State) (v : Word) : (s.setCr2 v).flags = s.flags := rfl
@[simp] theorem State.setCr2_ac (s : State) (v : Word) : (s.setCr2 v).ac = s.ac := rfl
@[simp] theorem State.setCr2_mode (s : State) (v : Word) : (s.setCr2 v).mode = s.mode := rfl
@[simp] theorem State.setCr2_cpl (s : State) (v : Word) : (s.setCr2 v).cpl = s.cpl := rfl
@[simp] theorem State.setCr2_activationOk (s : State) (v : Word) : (s.setCr2 v).activationOk = s.activationOk := rfl
@[simp] theorem State.setCr2_paeEnabled (s : State) (v : Word) : (s.setCr2 v).paeEnabled = s.paeEnabled := rfl
@[simp] theorem State.setCr2_ignne (s : State) (v : Word) : (s.setCr2 v).ignne = s.ignne := rfl
@[simp] theorem State.setCr2_ferr (s : State) (v : Word) : (s.setCr2 v).ferr = s.ferr := rfl
@[simp] theorem State.setCr2_x87 (s : State) (v : Word) : (s.setCr2 v).x87 = s.x87 := rfl
@[simp] theorem State.setCr2_mem (s : State) (v : Word) : (s.setCr2 v).mem = s.mem := rfl
@[simp] theorem State.setCr2_env (s : State) (v : Word) : (s.setCr2 v).env = s.env := rfl
@[simp] theorem State.setCr2_modeInput (s : State) (v : Word) : (s.setCr2 v).modeInput = s.modeInput := rfl
@[simp] theorem State.setCr2_admitted (s : State) (v : Word) : (s.setCr2 v).admitted = s.admitted := rfl
@[simp] theorem State.setCr2_draws (s : State) (v : Word) : (s.setCr2 v).draws = s.draws := rfl
@[simp] theorem State.setCr2_cfg (s : State) (v : Word) : (s.setCr2 v).cfg = s.cfg := rfl

/-! ### `setCr3` -/

@[simp] theorem State.setCr3_cr (s : State) (v : Word) : (s.setCr3 v).cr = { s.cr with cr3 := v } := rfl
@[simp] theorem State.setCr3_gpr (s : State) (v : Word) : (s.setCr3 v).gpr = s.gpr := rfl
@[simp] theorem State.setCr3_pc (s : State) (v : Word) : (s.setCr3 v).pc = s.pc := rfl
@[simp] theorem State.setCr3_flags (s : State) (v : Word) : (s.setCr3 v).flags = s.flags := rfl
@[simp] theorem State.setCr3_ac (s : State) (v : Word) : (s.setCr3 v).ac = s.ac := rfl
@[simp] theorem State.setCr3_mode (s : State) (v : Word) : (s.setCr3 v).mode = s.mode := rfl
@[simp] theorem State.setCr3_cpl (s : State) (v : Word) : (s.setCr3 v).cpl = s.cpl := rfl
@[simp] theorem State.setCr3_activationOk (s : State) (v : Word) : (s.setCr3 v).activationOk = s.activationOk := rfl
@[simp] theorem State.setCr3_paeEnabled (s : State) (v : Word) : (s.setCr3 v).paeEnabled = s.paeEnabled := rfl
@[simp] theorem State.setCr3_ignne (s : State) (v : Word) : (s.setCr3 v).ignne = s.ignne := rfl
@[simp] theorem State.setCr3_ferr (s : State) (v : Word) : (s.setCr3 v).ferr = s.ferr := rfl
@[simp] theorem State.setCr3_x87 (s : State) (v : Word) : (s.setCr3 v).x87 = s.x87 := rfl
@[simp] theorem State.setCr3_mem (s : State) (v : Word) : (s.setCr3 v).mem = s.mem := rfl
@[simp] theorem State.setCr3_env (s : State) (v : Word) : (s.setCr3 v).env = s.env := rfl
@[simp] theorem State.setCr3_modeInput (s : State) (v : Word) : (s.setCr3 v).modeInput = s.modeInput := rfl
@[simp] theorem State.setCr3_admitted (s : State) (v : Word) : (s.setCr3 v).admitted = s.admitted := rfl
@[simp] theorem State.setCr3_draws (s : State) (v : Word) : (s.setCr3 v).draws = s.draws := rfl
@[simp] theorem State.setCr3_cfg (s : State) (v : Word) : (s.setCr3 v).cfg = s.cfg := rfl

/-! ### `setCr4` -/

@[simp] theorem State.setCr4_cr (s : State) (v : Word) : (s.setCr4 v).cr = { s.cr with cr4 := v } := rfl
@[simp] theorem State.setCr4_gpr (s : State) (v : Word) : (s.setCr4 v).gpr = s.gpr := rfl
@[simp] theorem State.setCr4_pc (s : State) (v : Word) : (s.setCr4 v).pc = s.pc := rfl
@[simp] theorem State.setCr4_flags (s : State) (v : Word) : (s.setCr4 v).flags = s.flags := rfl
@[simp] theorem State.setCr4_ac (s : State) (v : Word) : (s.setCr4 v).ac = s.ac := rfl
@[simp] theorem State.setCr4_mode (s : State) (v : Word) : (s.setCr4 v).mode = s.mode := rfl
@[simp] theorem State.setCr4_cpl (s : State) (v : Word) : (s.setCr4 v).cpl = s.cpl := rfl
@[simp] theorem State.setCr4_activationOk (s : State) (v : Word) : (s.setCr4 v).activationOk = s.activationOk := rfl
@[simp] theorem State.setCr4_paeEnabled (s : State) (v : Word) : (s.setCr4 v).paeEnabled = s.paeEnabled := rfl
@[simp] theorem State.setCr4_ignne (s : State) (v : Word) : (s.setCr4 v).ignne = s.ignne := rfl
@[simp] theorem State.setCr4_ferr (s : State) (v : Word) : (s.setCr4 v).ferr = s.ferr := rfl
@[simp] theorem State.setCr4_x87 (s : State) (v : Word) : (s.setCr4 v).x87 = s.x87 := rfl
@[simp] theorem State.setCr4_mem (s : State) (v : Word) : (s.setCr4 v).mem = s.mem := rfl
@[simp] theorem State.setCr4_env (s : State) (v : Word) : (s.setCr4 v).env = s.env := rfl
@[simp] theorem State.setCr4_modeInput (s : State) (v : Word) : (s.setCr4 v).modeInput = s.modeInput := rfl
@[simp] theorem State.setCr4_admitted (s : State) (v : Word) : (s.setCr4 v).admitted = s.admitted := rfl
@[simp] theorem State.setCr4_draws (s : State) (v : Word) : (s.setCr4 v).draws = s.draws := rfl
@[simp] theorem State.setCr4_cfg (s : State) (v : Word) : (s.setCr4 v).cfg = s.cfg := rfl

/-! ### `setCr8` -/

@[simp] theorem State.setCr8_cr (s : State) (v : Word) : (s.setCr8 v).cr = { s.cr with cr8 := v } := rfl
@[simp] theorem State.setCr8_gpr (s : State) (v : Word) : (s.setCr8 v).gpr = s.gpr := rfl
@[simp] theorem State.setCr8_pc (s : State) (v : Word) : (s.setCr8 v).pc = s.pc := rfl
@[simp] theorem State.setCr8_flags (s : State) (v : Word) : (s.setCr8 v).flags = s.flags := rfl
@[simp] theorem State.setCr8_ac (s : State) (v : Word) : (s.setCr8 v).ac = s.ac := rfl
@[simp] theorem State.setCr8_mode (s : State) (v : Word) : (s.setCr8 v).mode = s.mode := rfl
@[simp] theorem State.setCr8_cpl (s : State) (v : Word) : (s.setCr8 v).cpl = s.cpl := rfl
@[simp] theorem State.setCr8_activationOk (s : State) (v : Word) : (s.setCr8 v).activationOk = s.activationOk := rfl
@[simp] theorem State.setCr8_paeEnabled (s : State) (v : Word) : (s.setCr8 v).paeEnabled = s.paeEnabled := rfl
@[simp] theorem State.setCr8_ignne (s : State) (v : Word) : (s.setCr8 v).ignne = s.ignne := rfl
@[simp] theorem State.setCr8_ferr (s : State) (v : Word) : (s.setCr8 v).ferr = s.ferr := rfl
@[simp] theorem State.setCr8_x87 (s : State) (v : Word) : (s.setCr8 v).x87 = s.x87 := rfl
@[simp] theorem State.setCr8_mem (s : State) (v : Word) : (s.setCr8 v).mem = s.mem := rfl
@[simp] theorem State.setCr8_env (s : State) (v : Word) : (s.setCr8 v).env = s.env := rfl
@[simp] theorem State.setCr8_modeInput (s : State) (v : Word) : (s.setCr8 v).modeInput = s.modeInput := rfl
@[simp] theorem State.setCr8_admitted (s : State) (v : Word) : (s.setCr8 v).admitted = s.admitted := rfl
@[simp] theorem State.setCr8_draws (s : State) (v : Word) : (s.setCr8 v).draws = s.draws := rfl
@[simp] theorem State.setCr8_cfg (s : State) (v : Word) : (s.setCr8 v).cfg = s.cfg := rfl

/-! ### `countDraws` -/

@[simp] theorem State.countDraws_cr (s : State) (n : Nat) : (s.countDraws n).cr = s.cr := rfl
@[simp] theorem State.countDraws_gpr (s : State) (n : Nat) : (s.countDraws n).gpr = s.gpr := rfl
@[simp] theorem State.countDraws_pc (s : State) (n : Nat) : (s.countDraws n).pc = s.pc := rfl
@[simp] theorem State.countDraws_flags (s : State) (n : Nat) : (s.countDraws n).flags = s.flags := rfl
@[simp] theorem State.countDraws_ac (s : State) (n : Nat) : (s.countDraws n).ac = s.ac := rfl
@[simp] theorem State.countDraws_mode (s : State) (n : Nat) : (s.countDraws n).mode = s.mode := rfl
@[simp] theorem State.countDraws_cpl (s : State) (n : Nat) : (s.countDraws n).cpl = s.cpl := rfl
@[simp] theorem State.countDraws_activationOk (s : State) (n : Nat) : (s.countDraws n).activationOk = s.activationOk := rfl
@[simp] theorem State.countDraws_paeEnabled (s : State) (n : Nat) : (s.countDraws n).paeEnabled = s.paeEnabled := rfl
@[simp] theorem State.countDraws_ignne (s : State) (n : Nat) : (s.countDraws n).ignne = s.ignne := rfl
@[simp] theorem State.countDraws_ferr (s : State) (n : Nat) : (s.countDraws n).ferr = s.ferr := rfl
@[simp] theorem State.countDraws_x87 (s : State) (n : Nat) : (s.countDraws n).x87 = s.x87 := rfl
@[simp] theorem State.countDraws_mem (s : State) (n : Nat) : (s.countDraws n).mem = s.mem := rfl
@[simp] theorem State.countDraws_env (s : State) (n : Nat) : (s.countDraws n).env = s.env := rfl
@[simp] theorem State.countDraws_modeInput (s : State) (n : Nat) : (s.countDraws n).modeInput = s.modeInput := rfl
@[simp] theorem State.countDraws_admitted (s : State) (n : Nat) : (s.countDraws n).admitted = s.admitted := rfl
@[simp] theorem State.countDraws_draws (s : State) (n : Nat) : (s.countDraws n).draws = s.draws + n := rfl
@[simp] theorem State.countDraws_cfg (s : State) (n : Nat) : (s.countDraws n).cfg = s.cfg := rfl

/-! ### `drawFlags` -/

@[simp] theorem State.drawFlags_cr (s : State) : (s.drawFlags).cr = s.cr := rfl
@[simp] theorem State.drawFlags_gpr (s : State) : (s.drawFlags).gpr = s.gpr := rfl
@[simp] theorem State.drawFlags_pc (s : State) : (s.drawFlags).pc = s.pc := rfl
@[simp] theorem State.drawFlags_flags (s : State) : (s.drawFlags).flags = StatusFlags.drawn s.draws := rfl
@[simp] theorem State.drawFlags_ac (s : State) : (s.drawFlags).ac = s.ac := rfl
@[simp] theorem State.drawFlags_mode (s : State) : (s.drawFlags).mode = s.mode := rfl
@[simp] theorem State.drawFlags_cpl (s : State) : (s.drawFlags).cpl = s.cpl := rfl
@[simp] theorem State.drawFlags_activationOk (s : State) : (s.drawFlags).activationOk = s.activationOk := rfl
@[simp] theorem State.drawFlags_paeEnabled (s : State) : (s.drawFlags).paeEnabled = s.paeEnabled := rfl
@[simp] theorem State.drawFlags_ignne (s : State) : (s.drawFlags).ignne = s.ignne := rfl
@[simp] theorem State.drawFlags_ferr (s : State) : (s.drawFlags).ferr = s.ferr := rfl
@[simp] theorem State.drawFlags_x87 (s : State) : (s.drawFlags).x87 = s.x87 := rfl
@[simp] theorem State.drawFlags_mem (s : State) : (s.drawFlags).mem = s.mem := rfl
@[simp] theorem State.drawFlags_env (s : State) : (s.drawFlags).env = s.env := rfl
@[simp] theorem State.drawFlags_modeInput (s : State) : (s.drawFlags).modeInput = s.modeInput := rfl
@[simp] theorem State.drawFlags_admitted (s : State) : (s.drawFlags).admitted = s.admitted := rfl
@[simp] theorem State.drawFlags_draws (s : State) : (s.drawFlags).draws = s.draws + 6 := rfl
@[simp] theorem State.drawFlags_cfg (s : State) : (s.drawFlags).cfg = s.cfg := rfl

end Sys2Proof.Machine
end

