-- ==== Sys2Proof/Laws/Ops.lean ====
section
/-!
SUPPORT. What each shared operation can do, said once: registers, the privilege check, completion, and the two operand forms.
-/

namespace Sys2Proof.Machine

/-! ### Bits -/

/-- The bits of a value joined from two halves. -/
theorem getLsbD_join32 (a b : BitVec 32) (i : Nat) :
    (join32 a b).getLsbD i = if i < 32 then b.getLsbD i else a.getLsbD (i - 32) :=
  @BitVec.getLsbD_append 32 32 i a b

theorem getLsbD_upper32 (v : Word) (i : Nat) : (upper32 v).getLsbD i = (decide (i < 32) && v.getLsbD (32 + i)) := by
  simp [upper32]

theorem getLsbD_lower32 (v : Word) (i : Nat) : (lower32 v).getLsbD i = (decide (i < 32) && v.getLsbD i) := by
  simp [lower32]

@[simp] theorem upper32_join32 (a b : BitVec 32) : upper32 (join32 a b) = a := by
  apply BitVec.eq_of_getLsbD_eq; intro i h
  rw [getLsbD_upper32, getLsbD_join32]; simp [h]

@[simp] theorem lower32_join32 (a b : BitVec 32) : lower32 (join32 a b) = b := by
  apply BitVec.eq_of_getLsbD_eq; intro i h
  rw [getLsbD_lower32, getLsbD_join32]; simp [h]

/-- A word is its two halves. -/
theorem join32_halves (v : Word) : join32 (upper32 v) (lower32 v) = v := by
  apply BitVec.eq_of_getLsbD_eq; intro i h
  rw [getLsbD_join32, getLsbD_upper32, getLsbD_lower32]
  by_cases h' : i < 32
  · simp [h']
  · simp [h', show i - 32 < 32 by omega, show 32 + (i - 32) = i by omega]

/-- Zeros over the low half are its zero extension. -/
theorem join32_zero (b : BitVec 32) : join32 0#32 b = b.setWidth 64 := by
  apply BitVec.eq_of_getLsbD_eq; intro i h
  rw [getLsbD_join32, BitVec.getLsbD_setWidth]
  by_cases h' : i < 32
  · simp [h', h]
  · simp [h', BitVec.getLsbD_of_ge b i (by omega)]

@[simp] theorem lower32_toNat (v : Word) : (lower32 v).toNat = v.toNat % 2 ^ 32 := by
  simp [lower32, BitVec.extractLsb'_toNat]

/-- A low bit is a bit of the low half. -/
theorem getLsbD_eq_lower32 (v : Word) (i : Nat) (h : i < 32) : v.getLsbD i = (lower32 v).getLsbD i := by
  simp [lower32, h]

/-- A bit of the upper half is clear when that half is zero. -/
theorem getLsbD_of_upper32_eq_zero {v : Word} (h : upper32 v = 0#32) (i : Nat) (hi : 32 ≤ i) : v.getLsbD i = false := by
  have := congrArg (fun w => w.getLsbD (i - 32)) h
  rw [getLsbD_upper32, BitVec.getLsbD_zero, show 32 + (i - 32) = i by omega] at this
  by_cases h' : i < 64
  · simpa only [show i - 32 < 32 by omega, decide_true, Bool.true_and] using this
  · exact BitVec.getLsbD_of_ge v i (by omega)

@[simp] theorem setBit_getLsbD (v : Word) (k i : Nat) :
    (setBit v k).getLsbD i = (v.getLsbD i || (decide (i = k) && decide (i < 64))) := by
  unfold setBit
  rw [BitVec.getLsbD_or, BitVec.getLsbD_shiftLeft, BitVec.getLsbD_one]
  by_cases h : i = k <;> by_cases h' : i < 64 <;> simp [h, h']
  omega

/-! ### General registers (R41) -/

@[simp] theorem State.getGpr_setGpr_self (s : State) (r : Gpr) (v : Word) : (s.setGpr r v).getGpr r = v := by
  simp [State.getGpr, State.setGpr]

theorem State.getGpr_setGpr_ne (s : State) (r q : Gpr) (v : Word) (h : q ≠ r) :
    (s.setGpr r v).getGpr q = s.getGpr q := by
  have : r.toNat ≠ q.toNat := fun e => h (BitVec.eq_of_toNat_eq e.symm)
  simp [State.getGpr, State.setGpr, this]

/-- Reading a register reads the register file. -/
theorem State.getGpr_congr {s t : State} (h : t.gpr = s.gpr) (q : Gpr) : t.getGpr q = s.getGpr q := by
  simp [State.getGpr, h]

/-! ### The privilege check (R85 step 2) -/

theorem State.privileged_iff (s : State) : s.privileged = true ↔ s.mode = .real ∨ s.cpl = 0 := by
  simp [State.privileged]

/-- Behind the privilege check an instruction goes on, or it raises #GP(0). -/
theorem State.checkPrivilege_of (s : State) (o : Outcome) (h : s.mode = .real ∨ s.cpl = 0) : s.checkPrivilege o = o := by
  simp [State.checkPrivilege, s.privileged_iff.mpr h]

theorem State.checkPrivilege_of_not (s : State) (o : Outcome) (hm : s.mode ≠ .real) (hc : s.cpl ≠ 0) :
    s.checkPrivilege o = raiseGp 0 := by
  have : ¬ s.privileged = true := fun h => (s.privileged_iff.mp h).elim hm hc
  simp [State.checkPrivilege, this]

/-- The two outcomes of the privilege check. -/
theorem State.checkPrivilege_cases (s : State) (o : Outcome) :
    ((s.mode = .real ∨ s.cpl = 0) ∧ s.checkPrivilege o = o) ∨
      ((s.mode ≠ .real ∧ s.cpl ≠ 0) ∧ s.checkPrivilege o = raiseGp 0) := by
  by_cases h : s.mode = .real ∨ s.cpl = 0
  · exact .inl ⟨h, s.checkPrivilege_of o h⟩
  · have h' := not_or.mp h
    exact .inr ⟨h', s.checkPrivilege_of_not o h'.1 h'.2⟩

/-- If the check lets a next state through, it was passed. -/
theorem State.checkPrivilege_next {s : State} {o : Outcome} {t : State} (h : s.checkPrivilege o = .next t) :
    (s.mode = .real ∨ s.cpl = 0) ∧ o = .next t := by
  rcases s.checkPrivilege_cases o with ⟨hp, e⟩ | ⟨_, e⟩
  · exact ⟨hp, e ▸ h⟩
  · rw [e] at h; exact nomatch h

/-! ### Completion (R42, R99) -/

/-- The state a completion leaves. -/
def State.completed (s : State) (len : Nat) (p : Option (Mode × Fin 4)) : State :=
  { s.drawFlags with
    pc := s.nextPc len
    mode := (p.getD (s.mode, s.cpl)).1
    cpl := (p.getD (s.mode, s.cpl)).2
    modeInput := if p.isSome then none else s.modeInput }

theorem State.complete_of_fits (s : State) (len : Nat) (b : Option (Mode × Fin 4)) (h : s.pcFits len = true) :
    s.complete len b = .next (s.completed len b) := by
  simp [State.complete, h, State.completed]

theorem State.complete_of_not_fits (s : State) (len : Nat) (b : Option (Mode × Fin 4)) (h : s.pcFits len = false) :
    s.complete len b = .refused .pcOverflow := by
  simp [State.complete, h]

/-- A completion that answers a next state had room for it. -/
theorem State.complete_next {s : State} {len : Nat} {b : Option (Mode × Fin 4)} {t : State} (h : s.complete len b = .next t) :
    s.pcFits len = true ∧ t = s.completed len b := by
  cases hf : s.pcFits len with
  | true => rw [s.complete_of_fits len b hf] at h; exact ⟨rfl, (Host.Outcome.next.inj h).symm⟩
  | false => rw [s.complete_of_not_fits len b hf] at h; exact nomatch h

/-- A completion never faults. -/
theorem State.complete_ne_fault (s : State) (len : Nat) (b : Option (Mode × Fin 4)) (e : Fault) : s.complete len b ≠ .fault e := by
  unfold State.complete; split <;> exact nofun

/-- The room for `pc + len` is a matter of mode and pc. -/
theorem State.pcFits_congr {s t : State} (hm : t.mode = s.mode) (hp : t.pc = s.pc) (len : Nat) :
    t.pcFits len = s.pcFits len := by
  unfold State.pcFits State.ip; rw [hm, hp]

/-- Where `pc + len` fits, the two ways of writing it agree (R42). -/
theorem State.nextPc_eq_advancedPc (s : State) (len : Nat) (h : s.pcFits len = true) :
    s.nextPc len = s.advancedPc len := by
  have h' : s.ip + len < pcLimit s.mode := of_decide_eq_true h
  unfold State.nextPc State.advancedPc
  unfold State.ip pcLimit at *
  apply BitVec.eq_of_toNat_eq
  by_cases hm : s.mode = .long64
  · simp only [hm, if_true] at h' ⊢
    simp [BitVec.toNat_add]
  · simp only [hm, if_false] at h' ⊢
    simp only [BitVec.toNat_ofNat, BitVec.toNat_setWidth, BitVec.toNat_add, lower32_toNat] at h' ⊢
    omega

@[simp] theorem State.completed_cr (s : State) (len : Nat) (b : Option (Mode × Fin 4)) : (s.completed len b).cr = s.cr := rfl
@[simp] theorem State.completed_gpr (s : State) (len : Nat) (b : Option (Mode × Fin 4)) : (s.completed len b).gpr = s.gpr := rfl
@[simp] theorem State.completed_pc (s : State) (len : Nat) (b : Option (Mode × Fin 4)) : (s.completed len b).pc = s.nextPc len := rfl
@[simp] theorem State.completed_flags (s : State) (len : Nat) (b : Option (Mode × Fin 4)) :
    (s.completed len b).flags = StatusFlags.drawn s.draws := rfl
@[simp] theorem State.completed_ac (s : State) (len : Nat) (b : Option (Mode × Fin 4)) : (s.completed len b).ac = s.ac := rfl
@[simp] theorem State.completed_mode (s : State) (len : Nat) (b : Option (Mode × Fin 4)) :
    (s.completed len b).mode = (b.getD (s.mode, s.cpl)).1 := rfl
@[simp] theorem State.completed_cpl (s : State) (len : Nat) (b : Option (Mode × Fin 4)) :
    (s.completed len b).cpl = (b.getD (s.mode, s.cpl)).2 := rfl
@[simp] theorem State.completed_modeInput (s : State) (len : Nat) (b : Option (Mode × Fin 4)) :
    (s.completed len b).modeInput = if b.isSome then none else s.modeInput := rfl
@[simp] theorem State.completed_activationOk (s : State) (len : Nat) (b : Option (Mode × Fin 4)) :
    (s.completed len b).activationOk = s.activationOk := rfl
@[simp] theorem State.completed_paeEnabled (s : State) (len : Nat) (b : Option (Mode × Fin 4)) :
    (s.completed len b).paeEnabled = s.paeEnabled := rfl
@[simp] theorem State.completed_ignne (s : State) (len : Nat) (b : Option (Mode × Fin 4)) : (s.completed len b).ignne = s.ignne := rfl
@[simp] theorem State.completed_ferr (s : State) (len : Nat) (b : Option (Mode × Fin 4)) : (s.completed len b).ferr = s.ferr := rfl
@[simp] theorem State.completed_x87 (s : State) (len : Nat) (b : Option (Mode × Fin 4)) : (s.completed len b).x87 = s.x87 := rfl
@[simp] theorem State.completed_mem (s : State) (len : Nat) (b : Option (Mode × Fin 4)) : (s.completed len b).mem = s.mem := rfl
@[simp] theorem State.completed_env (s : State) (len : Nat) (b : Option (Mode × Fin 4)) : (s.completed len b).env = s.env := rfl
@[simp] theorem State.completed_admitted (s : State) (len : Nat) (b : Option (Mode × Fin 4)) :
    (s.completed len b).admitted = s.admitted := rfl
@[simp] theorem State.completed_draws (s : State) (len : Nat) (b : Option (Mode × Fin 4)) : (s.completed len b).draws = s.draws + 6 := rfl
@[simp] theorem State.completed_cfg (s : State) (len : Nat) (b : Option (Mode × Fin 4)) : (s.completed len b).cfg = s.cfg := rfl

@[simp] theorem State.completed_getGpr (s : State) (len : Nat) (b : Option (Mode × Fin 4)) (q : Gpr) :
    (s.completed len b).getGpr q = s.getGpr q := rfl

/-! ### The width of a read (R86) -/

/-- A read changes the destination register, and the index of the next free value outside 64-bit mode. -/
theorem State.readCr_eq (s : State) (v : Word) (r : Gpr) :
    s.readCr v r = (s.setGpr r (if s.mode = .long64 then v else join32 (Config.draw32 s.draws) (lower32 v))).countDraws
      (if s.mode = .long64 then 0 else 1) := by
  unfold State.readCr; split <;> rfl

/-! ### The width of a write (R87) -/

theorem State.srcValue_long (s : State) (u : BitVec 32) (r : Gpr) (h : s.mode = .long64) : s.srcValue u r = s.getGpr r := by
  simp [State.srcValue, h]

theorem State.srcValue_short (s : State) (u : BitVec 32) (r : Gpr) (h : s.mode ≠ .long64) :
    s.srcValue u r = join32 u (lower32 (s.getGpr r)) := by
  simp [State.srcValue, h]

/-- The low half presented is the register's in every mode. -/
@[simp] theorem State.lower32_srcValue (s : State) (u : BitVec 32) (r : Gpr) :
    lower32 (s.srcValue u r) = lower32 (s.getGpr r) := by
  by_cases h : s.mode = .long64
  · rw [s.srcValue_long u r h]
  · rw [s.srcValue_short u r h, lower32_join32]

/-- `Upper(3)` is zero above its low byte. -/
theorem State.upper3_getLsbD (s : State) (i : Nat) (h : 8 ≤ i) : s.upper3.getLsbD i = false := by
  unfold State.upper3
  cases s.cfg.upper32 with
  | draw =>
    refine (@BitVec.getLsbD_append 24 8 i 0#24 (Config.draw8 s.draws)).trans ?_
    simp [show ¬ i < 8 by omega]
  | zero => simp

/-- `srcTop3` is bits 63:40 of the value a MOV to CR3 presents. -/
theorem State.srcTop3_eq (s : State) (r : Gpr) : s.srcTop3 r = (s.srcValue s.upper3 r).extractLsb' 40 24 := by
  unfold State.srcTop3
  by_cases h : s.mode = .long64
  · rw [if_pos h, s.srcValue_long _ r h]
  · rw [if_neg h, s.srcValue_short _ r h]
    apply BitVec.eq_of_getLsbD_eq; intro i hi
    simp [getLsbD_join32, show ¬ 40 + i < 32 by omega, s.upper3_getLsbD (40 + i - 32) (by omega)]

/-- R94 (a), on the value presented. -/
theorem State.cr3HasReserved51To40_iff (s : State) (r : Gpr) :
    s.cr3HasReserved51To40 r = true ↔ (s.srcValue s.upper3 r).extractLsb' 40 12 ≠ 0#12 := by
  have : (s.srcTop3 r).extractLsb' 0 12 = (s.srcValue s.upper3 r).extractLsb' 40 12 := by
    rw [s.srcTop3_eq]; apply BitVec.eq_of_getLsbD_eq; intro i h; simp [show i < 24 by omega]
  simp [State.cr3HasReserved51To40, this]

/-- The bits of `CR3_RSVD_OTHER`: its two parameters, and none between them (R4, R34). -/
theorem cr3RsvdOther_getLsbD (c : Config) (i : Nat) :
    (cr3RsvdOther c).getLsbD i =
      if i < 12 then c.cr3RsvdLow.getLsbD i else if i < 52 then false else c.cr3RsvdHigh.getLsbD (i - 52) := by
  refine (@BitVec.getLsbD_append 52 12 i (c.cr3RsvdHigh ++ 0#40) c.cr3RsvdLow).trans ?_
  by_cases h : i < 12
  · simp [h]
  · rw [if_neg h, if_neg h]
    refine (@BitVec.getLsbD_append 12 40 (i - 12) c.cr3RsvdHigh 0#40).trans ?_
    by_cases h' : i < 52
    · simp [h', show i - 12 < 40 by omega]
    · simp [h', show ¬ i - 12 < 40 by omega, show i - 12 - 40 = i - 52 by omega]

/-- A change under `CR3_RSVD_OTHER` is a change under one of its two parameters. -/
theorem cr3RsvdOther_change (c : Config) (v w : Word) :
    (v ^^^ w) &&& cr3RsvdOther c = 0#64 ↔
      ((v.extractLsb' 52 12 ^^^ w.extractLsb' 52 12) &&& c.cr3RsvdHigh) = 0#12 ∧
        ((v.extractLsb' 0 12 ^^^ w.extractLsb' 0 12) &&& c.cr3RsvdLow) = 0#12 := by
  constructor
  · intro h
    constructor
    · apply BitVec.eq_of_getLsbD_eq; intro i hi
      have := congrArg (fun x => x.getLsbD (52 + i)) h
      simpa [cr3RsvdOther_getLsbD, hi, show ¬ 52 + i < 12 by omega] using this
    · apply BitVec.eq_of_getLsbD_eq; intro i hi
      have := congrArg (fun x => x.getLsbD i) h
      simpa [cr3RsvdOther_getLsbD, hi] using this
  · rintro ⟨h1, h2⟩
    apply BitVec.eq_of_getLsbD_eq; intro i hi
    have e1 := congrArg (fun x => x.getLsbD (i - 52)) h1
    have e2 := congrArg (fun x => x.getLsbD i) h2
    simp only [BitVec.getLsbD_and, BitVec.getLsbD_xor, cr3RsvdOther_getLsbD, BitVec.getLsbD_zero,
      BitVec.getLsbD_extractLsb'] at e1 e2 ⊢
    by_cases h : i < 12
    · simpa [h] using e2
    · by_cases h' : i < 52
      · simp [h, h']
      · simpa [h, h', show i - 52 < 12 by omega, show 52 + (i - 52) = i by omega] using e1

/-- R94 (b), on the value presented. -/
theorem State.cr3ChangesReserved_iff (s : State) (r : Gpr) :
    s.cr3ChangesReserved r = true ↔ (s.srcValue s.upper3 r ^^^ s.cr.cr3) &&& cr3RsvdOther s.cfg ≠ 0#64 := by
  have ht : (s.srcTop3 r).extractLsb' 12 12 = (s.srcValue s.upper3 r).extractLsb' 52 12 := by
    rw [s.srcTop3_eq]; apply BitVec.eq_of_getLsbD_eq; intro i h
    simp [show 12 + i < 24 by omega, show 40 + (12 + i) = 52 + i by omega]
  have hl : (s.getGpr r).extractLsb' 0 12 = (s.srcValue s.upper3 r).extractLsb' 0 12 := by
    apply BitVec.eq_of_getLsbD_eq; intro i h
    have := congrArg (fun w => w.getLsbD i) (s.lower32_srcValue s.upper3 r)
    simp only [getLsbD_lower32, show i < 32 by omega, decide_true, Bool.true_and] at this
    simp [this]
  rw [ne_eq, cr3RsvdOther_change, State.cr3ChangesReserved, ht, hl, Bool.or_eq_true, bne_iff_ne, bne_iff_ne]
  tauto

end Sys2Proof.Machine
end

