-- ==== Sys2Proof/Laws/Exec.lean ====
section
/-!
SUPPORT. Said once for every instruction: what it can do if it answers a next state, and what its faults are.
-/

namespace Sys2Proof.Machine

/-! ### Moves from a control register -/

/-- A read behind the privilege check, completed. -/
theorem readCr_complete_next {s t : State} {v : Word} {r : Gpr} {len : Nat} {b : Option (Mode × Fin 4)}
    (h : s.checkPrivilege ((s.readCr v r).complete len b) = .next t) :
    (s.mode = .real ∨ s.cpl = 0) ∧ s.pcFits len = true ∧ t = (s.readCr v r).completed len b := by
  obtain ⟨hp, h⟩ := State.checkPrivilege_next h
  obtain ⟨hf, h⟩ := State.complete_next h
  refine ⟨hp, ?_, h⟩
  rw [← hf, s.readCr_eq]; rfl

theorem execMovFromCr0_next {f : Form} {r : Gpr} {s t : State} (h : execMovFromCr0 f r s = .next t) :
    (s.mode = .real ∨ s.cpl = 0) ∧ s.pcFits f.len = true ∧ t = (s.readCr s.cr.cr0 r).completed f.len none :=
  readCr_complete_next h

theorem execMovFromCr2_next {f : Form} {r : Gpr} {s t : State} (h : execMovFromCr2 f r s = .next t) :
    (s.mode = .real ∨ s.cpl = 0) ∧ s.pcFits f.len = true ∧ t = (s.readCr s.cr.cr2 r).completed f.len none :=
  readCr_complete_next h

theorem execMovFromCr3_next {f : Form} {r : Gpr} {s t : State} (h : execMovFromCr3 f r s = .next t) :
    (s.mode = .real ∨ s.cpl = 0) ∧ s.pcFits f.len = true ∧ t = (s.readCr s.cr.cr3 r).completed f.len none :=
  readCr_complete_next h

theorem execMovFromCr4_next {f : Form} {r : Gpr} {s t : State} (h : execMovFromCr4 f r s = .next t) :
    (s.mode = .real ∨ s.cpl = 0) ∧ s.pcFits f.len = true ∧ t = (s.readCr s.cr.cr4 r).completed f.len none :=
  readCr_complete_next h

theorem execMovFromCr8_next {f : Form} {r : Gpr} {s t : State} (h : execMovFromCr8 f r s = .next t) :
    (s.mode = .real ∨ s.cpl = 0) ∧ s.pcFits f.len = true ∧ t = (s.setGpr r s.cr.cr8).completed f.len none := by
  obtain ⟨hp, h⟩ := State.checkPrivilege_next h
  exact ⟨hp, State.complete_next h⟩

/-! ### Moves to a control register -/

/-- What a load of CR0 that answers a next state has checked, and the state it leaves (R92). -/
theorem State.loadCr0_next {s t : State} {v : Word} {len : Nat} (h : s.loadCr0 v len = .next t) :
    upper32 v = 0#32 ∧ (cr0Pg v = true → cr0Pe v = true) ∧ (cr0Nw v = true → cr0Cd v = true) ∧
      ¬ (s.mode = .long64 ∧ cr0Pg s.cr.cr0 = true ∧ cr0Pg v = false) ∧
      ¬ (cr0Pg s.cr.cr0 = false ∧ cr0Pg v = true ∧ s.activationOk = false) ∧
      (v ^^^ s.cr.cr0) &&& cr0Reserved s.cfg = 0#64 ∧ s.pcFits len = true ∧
      t = (s.setCr0 (cr0Stored s.cfg.family v)).completed len (s.modeAtLoad (cr0Stored s.cfg.family v)) := by
  unfold State.loadCr0 at h
  split at h
  · exact nomatch h
  · rename_i hu
    split at h
    · exact nomatch h
    · rename_i hpg
      split at h
      · exact nomatch h
      · rename_i hnw
        split at h
        · exact nomatch h
        · rename_i hd
          split at h
          · exact nomatch h
          · rename_i he
            split at h
            · exact nomatch h
            · rename_i hr
              obtain ⟨hf, ht⟩ := State.complete_next h
              refine ⟨not_not.mp hu, ?_, ?_, hd, he, not_not.mp hr, hf, ht⟩
              · intro h1; by_contra h2; exact hpg ⟨h1, by simpa using h2⟩
              · intro h1; by_contra h2; exact hnw ⟨h1, by simpa using h2⟩

theorem execMovToCr0_next {f : Form} {r : Gpr} {s t : State} (h : execMovToCr0 f r s = .next t) :
    (s.mode = .real ∨ s.cpl = 0) ∧ s.loadCr0 (s.srcValue 0#32 r) f.len = .next t :=
  State.checkPrivilege_next h

theorem execMovToCr2_next {f : Form} {r : Gpr} {s t : State} (h : execMovToCr2 f r s = .next t) :
    (s.mode = .real ∨ s.cpl = 0) ∧ s.pcFits f.len = true ∧
      t = ((s.setCr2 (s.srcValue s.upper2 r)).countDraws 1).completed f.len none := by
  obtain ⟨hp, h⟩ := State.checkPrivilege_next h
  exact ⟨hp, State.complete_next h⟩

/-- What a load of CR3 that answers a next state has checked, and the state it leaves (R94). -/
theorem State.loadCr3_next {s t : State} {r : Gpr} {len : Nat} (h : s.loadCr3 r len = .next t) :
    (s.srcValue s.upper3 r).extractLsb' 40 12 = 0#12 ∧
      (s.srcValue s.upper3 r ^^^ s.cr.cr3) &&& cr3RsvdOther s.cfg = 0#64 ∧ s.pcFits len = true ∧
      t = ((s.setCr3 (s.srcValue s.upper3 r)).countDraws 1).completed len none := by
  unfold State.loadCr3 at h
  split at h
  · exact nomatch h
  · rename_i ha
    split at h
    · exact nomatch h
    · rename_i hb
      obtain ⟨hf, ht⟩ := State.complete_next h
      rw [s.cr3HasReserved51To40_iff, not_not] at ha
      rw [s.cr3ChangesReserved_iff, not_not] at hb
      exact ⟨ha, hb, hf, ht⟩

theorem execMovToCr3_next {f : Form} {r : Gpr} {s t : State} (h : execMovToCr3 f r s = .next t) :
    (s.mode = .real ∨ s.cpl = 0) ∧ s.loadCr3 r f.len = .next t :=
  State.checkPrivilege_next h

/-- What a load of CR4 that answers a next state has checked, and the state it leaves (R95). -/
theorem State.loadCr4_next {s t : State} {v : Word} {len : Nat} (h : s.loadCr4 v len = .next t) :
    upper32 v = 0#32 ∧ (v ^^^ s.cr.cr4) &&& cr4Reserved s.cfg = 0#64 ∧
      (isIa32e s.mode = true → v.getLsbD 5 = s.cr.cr4.getLsbD 5) ∧ s.pcFits len = true ∧
      t = (s.setCr4 v).completed len none := by
  unfold State.loadCr4 at h
  split at h
  · exact nomatch h
  · rename_i hu
    split at h
    · exact nomatch h
    · rename_i hr
      split at h
      · exact nomatch h
      · rename_i hp
        obtain ⟨hf, ht⟩ := State.complete_next h
        exact ⟨not_not.mp hu, not_not.mp hr, fun hm => by_contra fun hne => hp ⟨hm, hne⟩, hf, ht⟩

theorem execMovToCr4_next {f : Form} {r : Gpr} {s t : State} (h : execMovToCr4 f r s = .next t) :
    (s.mode = .real ∨ s.cpl = 0) ∧ s.loadCr4 (s.srcValue 0#32 r) f.len = .next t :=
  State.checkPrivilege_next h

/-- What a load of CR8 that answers a next state has checked, and the state it leaves (R96). -/
theorem State.loadCr8_next {s t : State} {v : Word} {len : Nat} (h : s.loadCr8 v len = .next t) :
    v &&& ~~~ tprMask s.cfg = 0#64 ∧ s.pcFits len = true ∧ t = (s.setCr8 v).completed len none := by
  unfold State.loadCr8 at h
  split at h
  · exact nomatch h
  · rename_i hv
    obtain ⟨hf, ht⟩ := State.complete_next h
    exact ⟨not_not.mp hv, hf, ht⟩

theorem execMovToCr8_next {f : Form} {r : Gpr} {s t : State} (h : execMovToCr8 f r s = .next t) :
    (s.mode = .real ∨ s.cpl = 0) ∧ s.loadCr8 (s.getGpr r) f.len = .next t :=
  State.checkPrivilege_next h

/-! ### Every instruction -/

/-- What any instruction can do if it answers a next state: it passed the privilege check, had room for `pc + len`, and completed
after changing at most the control registers, the general registers and the index of the next free value. -/
theorem exec_next_shape {i : Instr} {s t : State} (h : exec i s = .next t) :
    (s.mode = .real ∨ s.cpl = 0) ∧ s.pcFits i.form.len = true ∧
      ∃ (s' : State) (b : Option (Mode × Fin 4)), t = s'.completed i.form.len b ∧
        s' = { s with cr := s'.cr, gpr := s'.gpr, draws := s'.draws } ∧ s.draws ≤ s'.draws := by
  have read : ∀ (v : Word) (r : Gpr), s.readCr v r =
      { s with cr := (s.readCr v r).cr, gpr := (s.readCr v r).gpr, draws := (s.readCr v r).draws } ∧
      s.draws ≤ (s.readCr v r).draws := by
    intro v r; rw [s.readCr_eq]; exact ⟨rfl, Nat.le_add_right _ _⟩
  cases i with
  | movFromCr0 f r => obtain ⟨hp, hf, ht⟩ := execMovFromCr0_next h; exact ⟨hp, hf, _, _, ht, read _ _⟩
  | movFromCr2 f r => obtain ⟨hp, hf, ht⟩ := execMovFromCr2_next h; exact ⟨hp, hf, _, _, ht, read _ _⟩
  | movFromCr3 f r => obtain ⟨hp, hf, ht⟩ := execMovFromCr3_next h; exact ⟨hp, hf, _, _, ht, read _ _⟩
  | movFromCr4 f r => obtain ⟨hp, hf, ht⟩ := execMovFromCr4_next h; exact ⟨hp, hf, _, _, ht, read _ _⟩
  | movFromCr8 f r =>
    obtain ⟨hp, hf, ht⟩ := execMovFromCr8_next h
    exact ⟨hp, hf, _, _, ht, rfl, Nat.le_refl _⟩
  | movToCr0 f r =>
    obtain ⟨hp, h⟩ := execMovToCr0_next h
    obtain ⟨-, -, -, -, -, -, hf, ht⟩ := State.loadCr0_next h
    exact ⟨hp, hf, _, _, ht, rfl, Nat.le_refl _⟩
  | movToCr2 f r =>
    obtain ⟨hp, hf, ht⟩ := execMovToCr2_next h
    exact ⟨hp, hf, _, _, ht, rfl, Nat.le_succ _⟩
  | movToCr3 f r =>
    obtain ⟨hp, h⟩ := execMovToCr3_next h
    obtain ⟨-, -, hf, ht⟩ := State.loadCr3_next h
    exact ⟨hp, hf, _, _, ht, rfl, Nat.le_succ _⟩
  | movToCr4 f r =>
    obtain ⟨hp, h⟩ := execMovToCr4_next h
    obtain ⟨-, -, -, hf, ht⟩ := State.loadCr4_next h
    exact ⟨hp, hf, _, _, ht, rfl, Nat.le_refl _⟩
  | movToCr8 f r =>
    obtain ⟨hp, h⟩ := execMovToCr8_next h
    obtain ⟨-, hf, ht⟩ := State.loadCr8_next h
    exact ⟨hp, hf, _, _, ht, rfl, Nat.le_refl _⟩
  | _ f r => exact nomatch h

/-- What any instruction can do to the control registers, MODE and CPL if it answers a next state: nothing, or what its own rule
R92 to R96 says of the register it names. -/
theorem exec_next_cr {i : Instr} {s t : State} (h : exec i s = .next t) :
    (ModeKept s t ∧ t.cr = s.cr) ∨
    (∃ f r, i = .movToCr0 f r ∧ s.loadCr0 (s.srcValue 0#32 r) f.len = .next t) ∨
    (∃ f r, i = .movToCr2 f r ∧ ModeKept s t ∧ ∃ v, t.cr = { s.cr with cr2 := v }) ∨
    (∃ f r, i = .movToCr3 f r ∧ ModeKept s t ∧ ∃ v, v.extractLsb' 40 12 = 0#12 ∧
      (v ^^^ s.cr.cr3) &&& cr3RsvdOther s.cfg = 0#64 ∧ t.cr = { s.cr with cr3 := v }) ∨
    (∃ f r, i = .movToCr4 f r ∧ ModeKept s t ∧ ∃ v, upper32 v = 0#32 ∧
      (v ^^^ s.cr.cr4) &&& cr4Reserved s.cfg = 0#64 ∧ t.cr = { s.cr with cr4 := v }) ∨
    (∃ f r, i = .movToCr8 f r ∧ ModeKept s t ∧ ∃ v, v &&& ~~~ tprMask s.cfg = 0#64 ∧ t.cr = { s.cr with cr8 := v }) := by
  have read : ∀ v r len, ModeKept s ((s.readCr v r).completed len none) ∧ ((s.readCr v r).completed len none).cr = s.cr := by
    intro v r len; rw [s.readCr_eq]; exact ⟨⟨rfl, rfl, rfl⟩, rfl⟩
  cases i with
  | movFromCr0 f r => obtain ⟨-, -, rfl⟩ := execMovFromCr0_next h; exact .inl (read _ _ _)
  | movFromCr2 f r => obtain ⟨-, -, rfl⟩ := execMovFromCr2_next h; exact .inl (read _ _ _)
  | movFromCr3 f r => obtain ⟨-, -, rfl⟩ := execMovFromCr3_next h; exact .inl (read _ _ _)
  | movFromCr4 f r => obtain ⟨-, -, rfl⟩ := execMovFromCr4_next h; exact .inl (read _ _ _)
  | movFromCr8 f r => obtain ⟨-, -, rfl⟩ := execMovFromCr8_next h; exact .inl ⟨⟨rfl, rfl, rfl⟩, rfl⟩
  | movToCr0 f r => exact .inr (.inl ⟨f, r, rfl, (execMovToCr0_next h).2⟩)
  | movToCr2 f r =>
    obtain ⟨-, -, rfl⟩ := execMovToCr2_next h
    exact .inr (.inr (.inl ⟨f, r, rfl, ⟨rfl, rfl, rfl⟩, _, rfl⟩))
  | movToCr3 f r =>
    obtain ⟨a, b, -, rfl⟩ := State.loadCr3_next (execMovToCr3_next h).2
    exact .inr (.inr (.inr (.inl ⟨f, r, rfl, ⟨rfl, rfl, rfl⟩, _, a, b, rfl⟩)))
  | movToCr4 f r =>
    obtain ⟨a, b, -, -, rfl⟩ := State.loadCr4_next (execMovToCr4_next h).2
    exact .inr (.inr (.inr (.inr (.inl ⟨f, r, rfl, ⟨rfl, rfl, rfl⟩, _, a, b, rfl⟩))))
  | movToCr8 f r =>
    obtain ⟨a, -, rfl⟩ := State.loadCr8_next (execMovToCr8_next h).2
    exact .inr (.inr (.inr (.inr (.inr ⟨f, r, rfl, ⟨rfl, rfl, rfl⟩, _, a, rfl⟩))))
  | _ f r => exact nomatch h

/-! ### Events -/

/-- A page fault that happens had paging enabled (R110, R111). -/
theorem State.pageFault_next {s t : State} {la : Word} (h : s.pageFault la = .next t) :
    cr0Pg s.cr.cr0 = true ∧
      t = (s.setCr2 (if s.mode = .long64 then la else join32 s.upper2 (lower32 la))).countDraws 1 := by
  unfold State.pageFault at h
  split at h
  · exact ⟨‹_›, (Host.Outcome.next.inj h).symm⟩
  · exact nomatch h

/-- A task switch that happens brings a permitted CR3 (R112). -/
theorem State.taskSwitch_next {s t : State} {w : Word} (h : s.taskSwitch w = .next t) :
    w.extractLsb' 40 12 = 0#12 ∧ w &&& cr3RsvdOther s.cfg = s.cr.cr3 &&& cr3RsvdOther s.cfg ∧
      t = (s.setCr0 (setBit s.cr.cr0 3)).setCr3 w := by
  unfold State.taskSwitch at h
  split at h
  · rename_i hw
    rw [State.taskCr3Ok, Bool.and_eq_true, beq_iff_eq, beq_iff_eq] at hw
    exact ⟨hw.1, hw.2, (Host.Outcome.next.inj h).symm⟩
  · exact nomatch h

/-- A change of mode that happens was allowed (R141, R143). -/
theorem State.changeMode_next {s t : State} {m : Mode} {c : Fin 4} (h : s.changeMode m c = .next t) :
    s.modeAllowed s.cr.cr0 m c = true ∧ t = { s with mode := m, cpl := c } := by
  unfold State.changeMode at h
  split at h
  · exact ⟨‹_›, (Host.Outcome.next.inj h).symm⟩
  · exact nomatch h

/-- What any event can do if it happens: it writes no memory, parameter, general register, pc or status flag; MODE and CPL change only
by the event that names them, and a control register only by a page fault or a task switch. -/
theorem applyEvent_next {e : Event} {s t : State} (h : applyEvent e s = .next t) :
    (t.mem = s.mem ∧ t.cfg = s.cfg ∧ t.gpr = s.gpr ∧ t.pc = s.pc ∧ t.flags = s.flags) ∧
    (t.ac = s.ac ∨ ∃ b, e = .setAc b) ∧
    ((t.mode = s.mode ∧ t.cpl = s.cpl) ∨
      (∃ m c, e = .setModeCpl m c ∧ s.modeAllowed s.cr.cr0 m c = true ∧ t.mode = m ∧ t.cpl = c ∧ t.cr = s.cr)) ∧
    (t.cr = s.cr ∨
      (∃ la, e = .pageFault la ∧ ∃ v, t.cr = { s.cr with cr2 := v }) ∨
      (∃ w, e = .taskSwitch w ∧ w.extractLsb' 40 12 = 0#12 ∧ w &&& cr3RsvdOther s.cfg = s.cr.cr3 &&& cr3RsvdOther s.cfg ∧
        t.cr = { s.cr with cr0 := setBit s.cr.cr0 3, cr3 := w })) := by
  cases e with
  | setModeCpl m c =>
    obtain ⟨ha, rfl⟩ := State.changeMode_next h
    exact ⟨⟨rfl, rfl, rfl, rfl, rfl⟩, .inl rfl, .inr ⟨m, c, rfl, ha, rfl, rfl, rfl⟩, .inl rfl⟩
  | pageFault la =>
    obtain ⟨-, rfl⟩ := State.pageFault_next h
    exact ⟨⟨rfl, rfl, rfl, rfl, rfl⟩, .inl rfl, .inl ⟨rfl, rfl⟩, .inr (.inl ⟨la, rfl, _, rfl⟩)⟩
  | taskSwitch w =>
    obtain ⟨a, b, rfl⟩ := State.taskSwitch_next h
    exact ⟨⟨rfl, rfl, rfl, rfl, rfl⟩, .inl rfl, .inl ⟨rfl, rfl⟩, .inr (.inr ⟨w, rfl, a, b, rfl⟩)⟩
  | externalInterrupt c =>
    obtain rfl := Host.Outcome.next.inj h
    split <;> exact ⟨⟨rfl, rfl, rfl, rfl, rfl⟩, .inl rfl, .inl ⟨rfl, rfl⟩, .inl rfl⟩
  | x87Error u =>
    obtain rfl := Host.Outcome.next.inj h
    split <;> (try split) <;> exact ⟨⟨rfl, rfl, rfl, rfl, rfl⟩, .inl rfl, .inl ⟨rfl, rfl⟩, .inl rfl⟩
  | setAc b =>
    obtain rfl := Host.Outcome.next.inj h
    exact ⟨⟨rfl, rfl, rfl, rfl, rfl⟩, .inr ⟨b, rfl⟩, .inl ⟨rfl, rfl⟩, .inl rfl⟩
  | _ =>
    obtain rfl := Host.Outcome.next.inj h
    exact ⟨⟨rfl, rfl, rfl, rfl, rfl⟩, .inl rfl, .inl ⟨rfl, rfl⟩, .inl rfl⟩

/-! ### Steps -/

/-- Bytes that do not decode never lead to a next state (R158). -/
theorem fetchStop_ne_next (e : DecodeError) (why : FetchEnd) (t : State) : fetchStop e why ≠ .next t := by
  cases e with
  | truncated => cases why <;> exact nofun
  | _ => exact nofun

/-- A step that answers a next state runs a decoded instruction or takes an event (R158); the schedule loses the entry it used
up. -/
theorem step_cases {s t : State} (h : step s = .next t) :
    (∃ i es, s.runs i ∧ (s.env = es ∨ s.env = .instr :: es) ∧ exec i { s with env := es } = .next t) ∨
      (∃ e es, s.env = .event e :: es ∧ applyEvent e { s with env := es } = .next t) := by
  have run : ∀ es, runInstr { s with env := es } = .next t →
      ∃ i, (∃ rest, decode s.mode s.fetched.1 = .ok (i, rest)) ∧ exec i { s with env := es } = .next t := by
    intro es h
    unfold runInstr at h
    change (match decode s.mode s.fetched.1 with
      | .ok (i, _) => exec i { s with env := es }
      | .error e => fetchStop e s.fetched.2) = .next t at h
    split at h
    · rename_i i rest hd; exact ⟨i, ⟨rest, hd⟩, h⟩
    · exact absurd h (fetchStop_ne_next _ _ _)
  unfold step at h
  split at h
  · rename_i he
    obtain ⟨i, hd, hx⟩ := run [] (by rw [← he]; exact h)
    exact .inl ⟨i, [], ⟨.inl he, hd⟩, .inl he, hx⟩
  · rename_i es he
    obtain ⟨i, hd, hx⟩ := run es h
    exact .inl ⟨i, es, ⟨.inr ⟨es, he⟩, hd⟩, .inr he, hx⟩
  · rename_i e es he
    exact .inr ⟨e, es, he, h⟩

end Sys2Proof.Machine
end

