-- ==== Sys2Proof/Laws/Memory.lean ====
section
/-!
SUPPORT. Memory: what a read gives after a write, and that every memory operation keeps the canonical form.
-/

namespace Sys2Proof.Machine

/-! ### Reading after writing -/

/-- A stored byte is read back; every other byte reads as before. -/
theorem Memory.read1_insert (m : List Host.Cell) (a b : Nat) (v : Byte) :
    Memory.read1 (Memory.insert m a v) b = if b = a then some v else Memory.read1 m b := by
  induction m with
  | nil =>
    by_cases h : b = a
    · simp [Memory.insert, Memory.read1, h]
    · simp [Memory.insert, Memory.read1, h, Ne.symm h]
  | cons c m ih =>
    obtain ⟨k, w⟩ := c
    unfold Memory.insert
    by_cases hlt : a < k
    · by_cases h : b = a
      · simp [hlt, Memory.read1, h]
      · simp [hlt, Memory.read1, h, Ne.symm h]
    · by_cases he : a = k
      · subst he
        by_cases h : b = a
        · simp [Memory.read1, h]
        · simp [Memory.read1, h, Ne.symm h]
      · simp only [hlt, he, if_false, Memory.read1, ih]
        by_cases hk : k = b
        · simp [hk, show ¬ b = a by omega]
        · simp [hk]

theorem Memory.read1_write1 (m : List Host.Cell) (a b : Nat) (v : Byte) (ha : a < 2 ^ 64) :
    Memory.read1 (Memory.write1 m a v) b = if b = a then some v else Memory.read1 m b := by
  rw [Memory.write1, if_pos ha, Memory.read1_insert]

/-- A write of several bytes leaves the bytes outside it alone. -/
theorem Memory.read1_writeBytes_outside (bs : List Byte) (m : List Host.Cell) (a b : Nat)
    (h : b < a ∨ a + bs.length ≤ b) : Memory.read1 (Memory.writeBytes m a bs) b = Memory.read1 m b := by
  induction bs generalizing m a with
  | nil => rfl
  | cons v bs ih =>
    simp only [List.length_cons] at h
    rw [Memory.writeBytes, ih _ _ (by omega)]
    unfold Memory.write1
    split
    · rw [Memory.read1_insert, if_neg (by omega)]
    · rfl

/-- Each byte of a write that lies in the address space is read back. -/
theorem Memory.read1_writeBytes_inside (bs : List Byte) (m : List Host.Cell) (a k : Nat) (hk : k < bs.length)
    (ha : a + bs.length ≤ 2 ^ 64) : Memory.read1 (Memory.writeBytes m a bs) (a + k) = some bs[k] := by
  induction bs generalizing m a k with
  | nil => exact absurd hk (Nat.not_lt_zero _)
  | cons v bs ih =>
    simp only [List.length_cons] at hk ha
    rw [Memory.writeBytes]
    cases k with
    | zero =>
      rw [Memory.read1_writeBytes_outside _ _ _ _ (by omega), Memory.read1_write1 _ _ _ _ (by omega)]
      simp
    | succ k =>
      rw [show a + (k + 1) = a + 1 + k by omega, ih _ _ _ (by omega) (by omega)]
      simp

/-! ### The canonical form -/

/-- Every address of a canonical memory from `lo` on could start lower. -/
theorem Memory.wfFrom_mono {m : List Host.Cell} {lo lo' : Nat} (h : Memory.wfFrom lo m = true) (hl : lo' ≤ lo) :
    Memory.wfFrom lo' m = true := by
  cases m with
  | nil => rfl
  | cons c m =>
    obtain ⟨k, v⟩ := c
    simp only [Memory.wfFrom, Bool.and_eq_true, decide_eq_true_eq] at h ⊢
    exact ⟨⟨by omega, h.1.2⟩, h.2⟩

theorem Memory.wfFrom_insert (m : List Host.Cell) (lo a : Nat) (v : Byte) (h : Memory.wfFrom lo m = true)
    (hl : lo ≤ a) (ha : a < 2 ^ 64) : Memory.wfFrom lo (Memory.insert m a v) = true := by
  induction m generalizing lo with
  | nil => simp only [Memory.insert, Memory.wfFrom, Bool.and_true, Bool.and_eq_true, decide_eq_true_eq]; omega
  | cons c m ih =>
    obtain ⟨k, w⟩ := c
    simp only [Memory.wfFrom, Bool.and_eq_true, decide_eq_true_eq] at h
    unfold Memory.insert
    by_cases hlt : a < k
    · simp only [hlt, if_true, Memory.wfFrom, Bool.and_eq_true, decide_eq_true_eq]
      exact ⟨⟨hl, ha⟩, ⟨by omega, h.1.2⟩, h.2⟩
    · by_cases he : a = k
      · subst he
        simp only [Nat.lt_irrefl, if_false, if_true, Memory.wfFrom, Bool.and_eq_true, decide_eq_true_eq]
        exact ⟨⟨hl, ha⟩, h.2⟩
      · simp only [hlt, he, if_false, Memory.wfFrom, Bool.and_eq_true, decide_eq_true_eq]
        exact ⟨h.1, ih _ h.2 (by omega)⟩

/-- A one-byte write keeps the canonical form. -/
theorem Memory.wf_write1 {m : List Host.Cell} (h : Memory.wf m = true) (a : Nat) (v : Byte) :
    Memory.wf (Memory.write1 m a v) = true := by
  unfold Memory.write1
  split
  · exact Memory.wfFrom_insert m 0 a v h (Nat.zero_le _) ‹_›
  · exact h

/-- A write of several bytes keeps the canonical form. -/
theorem Memory.wf_writeBytes (bs : List Byte) {m : List Host.Cell} (h : Memory.wf m = true) (a : Nat) :
    Memory.wf (Memory.writeBytes m a bs) = true := by
  induction bs generalizing m a with
  | nil => exact h
  | cons v bs ih => exact ih (Memory.wf_write1 h a v) _

/-- `MemWrite` keeps the canonical form. -/
theorem Memory.wf_memWrite {m : List Host.Cell} (h : Memory.wf m = true) (a n v : Nat) :
    Memory.wf (memWrite m a n v) = true := Memory.wf_writeBytes _ h _

/-- Storing a table word at pc keeps the canonical form. -/
theorem Memory.wf_storeAtPc {s : State} (h : Memory.wf s.mem = true) (nbits w : Nat) :
    Memory.wf (s.storeAtPc nbits w).mem = true := Memory.wf_writeBytes _ h _

/-- Reset memory has the canonical form. -/
theorem Memory.wf_reset : Memory.wf State.reset.mem = true := rfl

/-- Two canonical memories that read alike from `lo` on are equal data. -/
theorem Memory.ext_of_wfFrom (m n : List Host.Cell) (lo : Nat) (hm : Memory.wfFrom lo m = true)
    (hn : Memory.wfFrom lo n = true) (h : ∀ a, Memory.read1 m a = Memory.read1 n a) : m = n := by
  have below : ∀ (m : List Host.Cell) (lo a : Nat), Memory.wfFrom lo m = true → a < lo → Memory.read1 m a = none := by
    intro m
    induction m with
    | nil => intros; rfl
    | cons c m ih =>
      obtain ⟨k, v⟩ := c
      intro lo a hw ha
      simp only [Memory.wfFrom, Bool.and_eq_true, decide_eq_true_eq] at hw
      rw [Memory.read1, if_neg (by omega)]
      exact ih (k + 1) a hw.2 (by omega)
  induction m generalizing n lo with
  | nil =>
    cases n with
    | nil => rfl
    | cons c n => obtain ⟨k, v⟩ := c; have := h k; simp [Memory.read1] at this
  | cons c m ih =>
    obtain ⟨k, v⟩ := c
    cases n with
    | nil => have := h k; simp [Memory.read1] at this
    | cons d n =>
      obtain ⟨l, w⟩ := d
      simp only [Memory.wfFrom, Bool.and_eq_true, decide_eq_true_eq] at hm hn
      have hkl : k = l := by
        have hk := h k
        have hl := h l
        by_contra hne
        rcases Nat.lt_or_gt_of_ne hne with hlt | hlt
        · rw [Memory.read1, if_pos rfl, Memory.read1, if_neg (Ne.symm hne), below n _ k hn.2 (by omega)] at hk
          exact nomatch hk
        · rw [Memory.read1, if_neg hne, Memory.read1, if_pos rfl, below m _ l hm.2 (by omega)] at hl
          exact nomatch hl
      subst hkl
      have hv : v = w := by simpa [Memory.read1] using h k
      subst hv
      congr 1
      refine ih n (k + 1) hm.2 hn.2 fun a => ?_
      by_cases ha : k = a
      · subst ha; rw [below m _ k hm.2 (by omega), below n _ k hn.2 (by omega)]
      · have := h a; simpa [Memory.read1, ha] using this

end Sys2Proof.Machine
end

