-- ==== Sys2Proof/Tests/Slice0.lean ====
section
/-!
SUPPORT. Tests: ill-formed terms refused, every constructor decoded from a word written out bit by bit from 30_encoding.md R70 to
R74, vectors of 95_test_vectors.md (their ids stand in the comments), and a witness for the hypotheses of every obligation.
-/

namespace Sys2Proof.Tests

open Sys2Proof Sys2Proof.Machine

/-! ### Helpers -/

/-- The plain form: no prefixes, no REX byte, `mod` 11. -/
def plain : Form := ⟨[], none, 3#2⟩

/-- The form with a REX byte whose ignored bits are clear. -/
def withRex : Form := ⟨[], some ⟨false, false⟩, 3#2⟩

/-- The control registers most vectors start from, with a given CR0. -/
def crs (cr0 : Word) : CtrlRegs := ⟨cr0, 0#64, 0#64, 0#64, 0#64⟩

/-- A state at pc 0x1000 in which `x[r]` holds `v` and every other general register 0. -/
def machine (m : Mode) (cpl : Fin 4) (cr : CtrlRegs) (r : Gpr) (v : Word) : State :=
  { State.reset with mode := m, cpl := cpl, cr := cr, pc := 0x1000#64 }.setGpr r v

/-- The same state, with an event as the next step. -/
def scheduled (s : State) (e : Event) : State := { s with env := [.event e] }

/-- The control registers of a next state. -/
def crAfter : Outcome → Option CtrlRegs
  | .next t => some t.cr
  | .fault _ => none
  | .refused _ => none

/-- A general register of a next state. -/
def gprAfter (r : Gpr) : Outcome → Option Word
  | .next t => some (t.getGpr r)
  | .fault _ => none
  | .refused _ => none

/-- The pc of a next state. -/
def pcAfter : Outcome → Option Word
  | .next t => some t.pc
  | .fault _ => none
  | .refused _ => none

/-- MODE and CPL of a next state. -/
def modeAfter : Outcome → Option (Mode × Fin 4)
  | .next t => some (t.mode, t.cpl)
  | .fault _ => none
  | .refused _ => none

/-- The fault of an outcome. -/
def faultOf : Outcome → Option Fault
  | .next _ => none
  | .fault e => some e
  | .refused _ => none

/-- The refusal of an outcome. -/
def refusalOf : Outcome → Option Refusal
  | .next _ => none
  | .fault _ => none
  | .refused e => some e

/-- The decoder's reason for refusing bytes. -/
def errorOf : Except DecodeError (Instr × List Byte) → Option DecodeError
  | .ok _ => none
  | .error e => some e

/-- What the decoder reads. -/
def readOf : Except DecodeError (Instr × List Byte) → Option (Instr × List Byte)
  | .ok p => some p
  | .error _ => none

/-! ### WellFormed: an ill-formed term for each check -/

theorem test_wellFormed_accepts : (Instr.movToCr8 ⟨[.opSize, .cs, .gs, .es], some ⟨true, true⟩, 0#2⟩ 15#4).wellFormed .long64 = true := by
  decide
theorem test_wellFormed_refuses_five_prefixes :
    (Instr.movFromCr0 ⟨[.opSize, .cs, .gs, .es, .ds], none, 3#2⟩ 0#4).wellFormed .long64 = false := by decide
theorem test_wellFormed_refuses_rex_outside_long_mode : (Instr.movFromCr0 withRex 0#4).wellFormed .compat = false := by decide
theorem test_wellFormed_refuses_cr8_without_rex : (Instr.movFromCr8 plain 0#4).wellFormed .long64 = false := by decide
theorem test_wellFormed_refuses_r8_without_rex : (Instr.movFromCr0 plain 8#4).wellFormed .long64 = false := by decide

/-! ### Decoding: every constructor from a word written out from the encoding, `0F` `20`/`22`, ModRM `mod reg rm`; numbers 8
to 15 with the REX byte `0100WRXB` -/

theorem test_decode_movFromCr0 :
    readOf (decode .long64 [0x0F#8, 0x20#8, 0b11_000_010#8]) = some (.movFromCr0 plain 2#4, []) := by decide
theorem test_decode_movFromCr1 :
    readOf (decode .long64 [0x0F#8, 0x20#8, 0b11_001_101#8]) = some (.movFromCr1 plain 5#4, []) := by decide
theorem test_decode_movFromCr2 :
    readOf (decode .long64 [0x0F#8, 0x20#8, 0b11_010_000#8]) = some (.movFromCr2 plain 0#4, []) := by decide
theorem test_decode_movFromCr3 :
    readOf (decode .long64 [0x0F#8, 0x20#8, 0b11_011_011#8]) = some (.movFromCr3 plain 3#4, []) := by decide
theorem test_decode_movFromCr4 :
    readOf (decode .long64 [0x0F#8, 0x20#8, 0b11_100_110#8]) = some (.movFromCr4 plain 6#4, []) := by decide
theorem test_decode_movFromCr5 :
    readOf (decode .long64 [0x0F#8, 0x20#8, 0b11_101_001#8]) = some (.movFromCr5 plain 1#4, []) := by decide
theorem test_decode_movFromCr6 :
    readOf (decode .long64 [0x0F#8, 0x20#8, 0b11_110_100#8]) = some (.movFromCr6 plain 4#4, []) := by decide
theorem test_decode_movFromCr7 :
    readOf (decode .long64 [0x0F#8, 0x20#8, 0b11_111_111#8]) = some (.movFromCr7 plain 7#4, []) := by decide
theorem test_decode_movFromCr8 :
    readOf (decode .long64 [0b0100_0100#8, 0x0F#8, 0x20#8, 0b11_000_010#8]) = some (.movFromCr8 withRex 2#4, []) := by decide
theorem test_decode_movFromCr9 :
    readOf (decode .long64 [0b0100_0101#8, 0x0F#8, 0x20#8, 0b11_001_101#8]) = some (.movFromCr9 withRex 13#4, []) := by decide
theorem test_decode_movFromCr10 :
    readOf (decode .long64 [0b0100_0100#8, 0x0F#8, 0x20#8, 0b11_010_000#8]) = some (.movFromCr10 withRex 0#4, []) := by decide
theorem test_decode_movFromCr11 :
    readOf (decode .long64 [0b0100_0101#8, 0x0F#8, 0x20#8, 0b11_011_011#8]) = some (.movFromCr11 withRex 11#4, []) := by decide
theorem test_decode_movFromCr12 :
    readOf (decode .long64 [0b0100_0100#8, 0x0F#8, 0x20#8, 0b11_100_110#8]) = some (.movFromCr12 withRex 6#4, []) := by decide
theorem test_decode_movFromCr13 :
    readOf (decode .long64 [0b0100_0101#8, 0x0F#8, 0x20#8, 0b11_101_001#8]) = some (.movFromCr13 withRex 9#4, []) := by decide
theorem test_decode_movFromCr14 :
    readOf (decode .long64 [0b0100_0100#8, 0x0F#8, 0x20#8, 0b11_110_100#8]) = some (.movFromCr14 withRex 4#4, []) := by decide
theorem test_decode_movFromCr15 :
    readOf (decode .long64 [0b0100_0101#8, 0x0F#8, 0x20#8, 0b11_111_111#8]) = some (.movFromCr15 withRex 15#4, []) := by decide
theorem test_decode_movToCr0 :
    readOf (decode .long64 [0x0F#8, 0x22#8, 0b11_000_001#8]) = some (.movToCr0 plain 1#4, []) := by decide
theorem test_decode_movToCr1 :
    readOf (decode .long64 [0x0F#8, 0x22#8, 0b11_001_100#8]) = some (.movToCr1 plain 4#4, []) := by decide
theorem test_decode_movToCr2 :
    readOf (decode .long64 [0x0F#8, 0x22#8, 0b11_010_111#8]) = some (.movToCr2 plain 7#4, []) := by decide
theorem test_decode_movToCr3 :
    readOf (decode .long64 [0x0F#8, 0x22#8, 0b11_011_010#8]) = some (.movToCr3 plain 2#4, []) := by decide
theorem test_decode_movToCr4 :
    readOf (decode .long64 [0x0F#8, 0x22#8, 0b11_100_101#8]) = some (.movToCr4 plain 5#4, []) := by decide
theorem test_decode_movToCr5 :
    readOf (decode .long64 [0x0F#8, 0x22#8, 0b11_101_000#8]) = some (.movToCr5 plain 0#4, []) := by decide
theorem test_decode_movToCr6 :
    readOf (decode .long64 [0x0F#8, 0x22#8, 0b11_110_011#8]) = some (.movToCr6 plain 3#4, []) := by decide
theorem test_decode_movToCr7 :
    readOf (decode .long64 [0x0F#8, 0x22#8, 0b11_111_110#8]) = some (.movToCr7 plain 6#4, []) := by decide
theorem test_decode_movToCr8 :
    readOf (decode .long64 [0b0100_0100#8, 0x0F#8, 0x22#8, 0b11_000_001#8]) = some (.movToCr8 withRex 1#4, []) := by decide
theorem test_decode_movToCr9 :
    readOf (decode .long64 [0b0100_0101#8, 0x0F#8, 0x22#8, 0b11_001_100#8]) = some (.movToCr9 withRex 12#4, []) := by decide
theorem test_decode_movToCr10 :
    readOf (decode .long64 [0b0100_0100#8, 0x0F#8, 0x22#8, 0b11_010_111#8]) = some (.movToCr10 withRex 7#4, []) := by decide
theorem test_decode_movToCr11 :
    readOf (decode .long64 [0b0100_0101#8, 0x0F#8, 0x22#8, 0b11_011_010#8]) = some (.movToCr11 withRex 10#4, []) := by decide
theorem test_decode_movToCr12 :
    readOf (decode .long64 [0b0100_0100#8, 0x0F#8, 0x22#8, 0b11_100_101#8]) = some (.movToCr12 withRex 5#4, []) := by decide
theorem test_decode_movToCr13 :
    readOf (decode .long64 [0b0100_0101#8, 0x0F#8, 0x22#8, 0b11_101_000#8]) = some (.movToCr13 withRex 8#4, []) := by decide
theorem test_decode_movToCr14 :
    readOf (decode .long64 [0b0100_0100#8, 0x0F#8, 0x22#8, 0b11_110_011#8]) = some (.movToCr14 withRex 3#4, []) := by decide
theorem test_decode_movToCr15 :
    readOf (decode .long64 [0b0100_0101#8, 0x0F#8, 0x22#8, 0b11_111_110#8]) = some (.movToCr15 withRex 14#4, []) := by decide

/-- D-12: REX.W is kept and ignored; D-17 to D-19: `mod` is kept and no byte follows ModRM. -/
theorem test_decode_keeps_ignored_bits :
    readOf (decode .long64 [0x4C#8, 0x0F#8, 0x20#8, 0x44#8, 0x99#8]) =
      some (.movFromCr8 ⟨[], some ⟨true, false⟩, 1#2⟩ 4#4, [0x99#8]) := by decide
/-- D-24. -/
theorem test_decode_two_prefixes :
    readOf (decode .prot32 [0x2E#8, 0x66#8, 0x0F#8, 0x22#8, 0xD8#8]) = some (.movToCr3 ⟨[.cs, .opSize], none, 3#2⟩ 0#4, []) := by
  decide
/-- D-20. -/
theorem test_decode_lock : errorOf (decode .prot32 [0xF0#8, 0x0F#8, 0x20#8, 0xC0#8]) = some .lockPrefix := by decide
/-- R75 before R98, the model's choice (log entry 8): a LOCK prefix before a move from CR1. -/
theorem test_decode_lock_reserved : errorOf (decode .long64 [0xF0#8, 0x0F#8, 0x20#8, 0xC8#8]) = some .lockPrefix := by decide
/-- D-21. -/
theorem test_decode_repeat : errorOf (decode .prot32 [0xF3#8, 0x0F#8, 0x22#8, 0xD8#8]) = some .repeatPrefix := by decide
/-- D-22: a debug-register move is out of scope. -/
theorem test_decode_debug_move : errorOf (decode .long64 [0x0F#8, 0x21#8, 0xC0#8]) = some .notAMovCrn := by decide
/-- D-23: outside 64-bit mode the byte 44 is no REX prefix. -/
theorem test_decode_rex_outside_long_mode : errorOf (decode .prot32 [0x44#8, 0x0F#8, 0x22#8, 0xC0#8]) = some .notAMovCrn := by decide
/-- A REX byte must be the last byte before the opcode (R70). -/
theorem test_decode_rex_before_prefix : errorOf (decode .long64 [0x44#8, 0x66#8, 0x0F#8, 0x20#8, 0xC0#8]) = some .notAMovCrn := by
  decide
/-- The opcode table's word of `MOV r, CR3`, opcode1 most significant (R78). -/
theorem test_decodeTableWord : decodeTableWord 24 0x0F2018 = some (.movFromCr3 ⟨[], none, 0#2⟩ 0#4) := by decide
/-- The word stored for the fetch is the instruction the first step after reset runs. -/
theorem test_withFetchWord : pcAfter (step (State.reset.withFetchWord 24 0x0F2018)) = some 0xFFFFFFF3#64 := by decide

/-! ### Moves from a control register: vectors of 95_test_vectors.md 2.2 -/

/-- RD0-1. -/
theorem test_movFromCr0_long : gprAfter 0#4 (exec (.movFromCr0 plain 0#4) (machine .long64 0 (crs 0x80050033#64) 0#4 0#64)) =
    some 0x80050033#64 := by decide
/-- RD0-3. -/
theorem test_movFromCr0_user : faultOf (exec (.movFromCr0 plain 0#4) (machine .prot32 3 (crs 0x80050033#64) 0#4 0#64)) =
    some (.generalProtection 0) := by decide
/-- RD2-2: the low half of CR2, not its upper half. -/
theorem test_movFromCr2_compat :
    gprAfter 0#4 (exec (.movFromCr2 plain 0#4)
      (machine .compat 0 ⟨0x80050033#64, 0xFFFF800012345678#64, 0#64, 0#64, 0#64⟩ 0#4 0#64)) =
        some (join32 (Config.draw32 0) 0x12345678#32) := rfl
/-- RD2-1. -/
theorem test_movFromCr2_long :
    gprAfter 3#4 (exec (.movFromCr2 plain 3#4)
      (machine .long64 0 ⟨0x80050033#64, 0x00007FFFDEADB000#64, 0#64, 0#64, 0#64⟩ 0#4 0#64)) = some 0x00007FFFDEADB000#64 := by decide
/-- RD3-1: PCD and PWT are returned as stored. -/
theorem test_movFromCr3_long :
    gprAfter 0#4 (exec (.movFromCr3 plain 0#4)
      (machine .long64 0 ⟨0x80050033#64, 0#64, 0x101018#64, 0#64, 0#64⟩ 0#4 0#64)) = some 0x101018#64 := by decide
/-- RD4-1. -/
theorem test_movFromCr4_long :
    gprAfter 1#4 (exec (.movFromCr4 plain 1#4)
      (machine .long64 0 ⟨0x80050033#64, 0#64, 0#64, 0x6A0#64, 0#64⟩ 0#4 0#64)) = some 0x6A0#64 := by decide
/-- RD8-1: the value and the length with a REX byte. -/
theorem test_movFromCr8_value :
    gprAfter 2#4 (exec (.movFromCr8 withRex 2#4)
      (machine .long64 0 ⟨0x80050033#64, 0#64, 0#64, 0#64, 9#64⟩ 0#4 0#64)) = some 9#64 := by decide
theorem test_movFromCr8_pc :
    pcAfter (exec (.movFromCr8 withRex 2#4) (machine .long64 0 (crs 0x80050033#64) 0#4 0#64)) = some 0x1004#64 := by decide

/-! ### Moves to a control register: vectors of 2.3 to 2.7 -/

/-- W0-3: ET stays 1. -/
theorem test_movToCr0_et : crAfter (exec (.movToCr0 plain 0#4) (machine .real 0 (crs 0x60000010#64) 0#4 0x60000001#64)) =
    some (crs 0x60000011#64) := by decide
/-- W0-13: (b) comes before (c). -/
theorem test_movToCr0_order : faultOf (exec (.movToCr0 plain 0#4) (machine .prot32 0 (crs 0x11#64) 0#4 0xA0000010#64)) =
    some (.generalProtection 0) := by decide
/-- P6, W0-1: with PE set the mode is protected mode as soon as the MOV completes. -/
theorem test_movToCr0_entersProtectedMode :
    modeAfter (exec (.movToCr0 plain 0#4) { machine .real 0 (crs 0x60000010#64) 0#4 0x60000011#64 with
      modeInput := some (.prot32, 0) }) = some (.prot32, 0) := by decide
/-- W0-16: with PG cleared in compatibility mode the mode leaves IA-32e mode. -/
theorem test_movToCr0_leavesIa32eMode :
    modeAfter (exec (.movToCr0 plain 0#4) { machine .compat 0 (crs 0x80050033#64) 0#4 0x50033#64 with
      modeInput := some (.prot32, 0) }) = some (.prot32, 0) := by decide
/-- W2-2. -/
theorem test_movToCr2_long :
    crAfter (exec (.movToCr2 plain 0#4) (machine .long64 0 (crs 0x80050033#64) 0#4 0x8000000000000000#64)) =
      some ⟨0x80050033#64, 0x8000000000000000#64, 0#64, 0#64, 0#64⟩ := by decide
/-- W2-3. -/
theorem test_movToCr2_short :
    crAfter (exec (.movToCr2 plain 0#4) (machine .prot32 0 (crs 0x11#64) 0#4 0xFFFFFFFF12345678#64)) =
      some ⟨0x11#64, join32 (Config.draw32 0) 0x12345678#32, 0#64, 0#64, 0#64⟩ := rfl
/-- W3-1. -/
theorem test_movToCr3_long : crAfter (exec (.movToCr3 plain 0#4) (machine .long64 0 (crs 0x80050033#64) 0#4 0x200000#64)) =
    some ⟨0x80050033#64, 0#64, 0x200000#64, 0#64, 0#64⟩ := by decide
/-- W3-3. -/
theorem test_movToCr3_bit51 :
    refusalOf (exec (.movToCr3 plain 0#4) (machine .long64 0 (crs 0x80050033#64) 0#4 0x0008000000200000#64)) =
      some .cr3Reserved51To40Nonzero := by decide
/-- W4-7. -/
theorem test_movToCr4_commit : crAfter (exec (.movToCr4 plain 1#4) (machine .prot32 0 (crs 0x11#64) 1#4 0x6A0#64)) =
    some ⟨0x11#64, 0#64, 0#64, 0x6A0#64, 0#64⟩ := by decide
/-- W4-10. -/
theorem test_movToCr4_pae :
    refusalOf (exec (.movToCr4 plain 1#4) (machine .compat 0 ⟨0x80050033#64, 0#64, 0#64, 0xA0#64, 0#64⟩ 1#4 0x80#64)) =
      some .cr4PaeChangedInIa32e := by decide
/-- W8-6. -/
theorem test_movToCr8_commit : crAfter (exec (.movToCr8 withRex 15#4) (machine .long64 0 (crs 0x80050033#64) 15#4 3#64)) =
    some ⟨0x80050033#64, 0#64, 0#64, 0#64, 3#64⟩ := by decide
/-- W8-2. -/
theorem test_movToCr8_bit4 : refusalOf (exec (.movToCr8 withRex 0#4) (machine .long64 0 (crs 0x80050033#64) 0#4 0x10#64)) =
    some .cr8ReservedBitsNonzero := by decide
/-- X-3: the refusal comes before the privilege check. -/
theorem test_movFromCr5_user : refusalOf (exec (.movFromCr5 plain 0#4) (machine .prot32 3 (crs 0x80050033#64) 0#4 0#64)) =
    some (.reservedControlRegister 5) := by decide

/-! ### Events, predicates and parameters: vectors of 2.9 and 2.10 -/

/-- E-4. -/
theorem test_taskSwitch :
    crAfter (step (scheduled (machine .long64 0 (crs 0x80050033#64) 0#4 0#64) (.taskSwitch 0x101000#64))) =
      some ⟨0x8005003B#64, 0#64, 0x101000#64, 0#64, 0#64⟩ := by decide
/-- E-1. -/
theorem test_pageFault :
    crAfter (step (scheduled (machine .long64 0 (crs 0x80050033#64) 0#4 0#64) (.pageFault 0x00007F0012345000#64))) =
      some ⟨0x80050033#64, 0x00007F0012345000#64, 0#64, 0#64, 0#64⟩ := by decide
/-- I-3 and I-4. -/
theorem test_mayInterrupt :
    State.mayInterrupt (machine .compat 0 ⟨0x80050033#64, 0#64, 0#64, 0#64, 9#64⟩ 0#4 0#64) 9#4 = false ∧
      State.mayInterrupt (machine .compat 0 ⟨0x80050033#64, 0#64, 0#64, 0#64, 9#64⟩ 0#4 0#64) 10#4 = true := by decide
/-- C-1. -/
theorem test_cacheControl : State.cacheControl (machine .prot32 0 (crs 0x11#64) 0#4 0#64) = .enabled .writeBack := by decide
/-- `CR3_RSVD_MASK` and `CR3_RSVD_OTHER` of R4, by default. -/
theorem test_cr3_masks :
    cr3RsvdMask Config.default = 0xFFFFFF0000000FE7#64 ∧ cr3RsvdOther Config.default = 0xFFF0000000000FE7#64 := by decide
/-- P8: in a 32-bit mode the base is CR3 bits 31:12. -/
theorem test_pdBase : pdBase .prot32 0x2500200018#64 = 0x200000#64 := by decide
/-- R61: the byte at the lowest address holds bits 7:0. -/
theorem test_memWrite : memWrite [] 0x10 2 0x1234 = [(0x10, 0x34#8), (0x11, 0x12#8)] := by decide

/-! ### Witnesses: for every obligation with hypotheses, a state and operands that meet them, each clause apart -/

/-- 64-bit mode at CPL 0 with paging on. -/
def longState : State := machine .long64 0 ⟨0x80050033#64, 5#64, 0x101018#64, 0x6A0#64, 9#64⟩ 1#4 0x80050037#64

/-- Protected mode at CPL 0 without paging. -/
def protState : State := machine .prot32 0 (crs 0x11#64) 0#4 0x80000011#64

/-- `longState` with a MOV to CR8 standing at pc. -/
def storedState : State :=
  { longState with mem := [(0x1000, 0x44#8), (0x1001, 0x0F#8), (0x1002, 0x22#8), (0x1003, 0xC0#8)] }

/-- The instruction that stands there. -/
def storedInstr : Instr := .movToCr8 withRex 0#4

/-- Real-address mode with the value in x0 that sets PE, where the environment wants protected mode at CPL 0 next (P6). -/
def enteringProtected : State :=
  { machine .real 0 (crs 0x60000010#64) 0#4 0x60000011#64 with modeInput := some (.prot32, 0) }

/-- Protected mode with the value in x0 that sets PG, where the environment wants compatibility mode at CPL 0 next. -/
def enteringIa32e : State := { protState with modeInput := some (.compat, 0) }

/-- The longest instruction: four prefixes, a REX byte, both numbers 15. -/
def longest : Instr := .movToCr15 ⟨[.opSize, .addrSize, .fs, .ss], some ⟨true, true⟩, 0#2⟩ 15#4

theorem test_witness_DecodeOfEncodeIsTheInstruction :
    longest.wellFormed .long64 = true ∧ (Instr.movFromCr7 plain 7#4).wellFormed .v86 = true := by decide
theorem test_witness_EncodeOfDecodeIsTheBytes : ∃ i rest,
    decode .long64 [0x66#8, 0x67#8, 0x64#8, 0x36#8, 0x4F#8, 0x0F#8, 0x22#8, 0x3F#8] = .ok (i, rest) := ⟨longest, [], rfl⟩
theorem test_witness_WorkedEncodingsDecode : Mode.v86 ≠ .long64 := by decide
theorem test_witness_LockAndRepeatPrefixesAreRefused :
    (Instr.movFromCr0 plain 7#4).wellFormed .real = true ∧ (Instr.movFromCr0 plain 7#4).form.prefixes = [] ∧
      [LegacyPrefix.opSize].length + [LegacyPrefix.es, .cs].length < 4 := by decide
/-- Five bytes of one kind, LOCK and repeat prefixes alone; eleven bytes, each of the eleven once. -/
theorem test_witness_MoreThanFourPrefixesAreRefused :
    let all := [0x66#8, 0x67#8, 0x26#8, 0x2E#8, 0x36#8, 0x3E#8, 0x64#8, 0x65#8, 0xF0#8, 0xF2#8, 0xF3#8]
    let five := [0xF0#8, 0xF2#8, 0xF3#8, 0xF0#8, 0xF2#8]
    (∀ b ∈ five, b ∈ all) ∧ 4 < five.length ∧ 4 < all.length := by decide
theorem test_witness_OutsideLongModeNumbersAreBelowEight :
    Mode.prot32 ≠ .long64 ∧ ∃ i rest, decode .prot32 [0x0F#8, 0x20#8, 0xFF#8] = .ok (i, rest) :=
  ⟨by decide, .movFromCr7 plain 7#4, [], rfl⟩
/-- pc four bytes below the limit of protected mode: three bytes fit, four do not. -/
theorem test_witness_IgnoredBitsChangeOnlyTheLength_next :
    ((∃ t, exec (.movFromCr0 plain 0#4) longState = .next t) ∧ longState.pcFits withRex.len = true) ∧
      let s := { protState with pc := 0xFFFFFFFC#64 }
      (∃ t, exec (.movFromCr0 plain 0#4) s = .next t) ∧ s.pcFits (Form.mk [.opSize] none 3#2).len = false :=
  ⟨⟨⟨_, rfl⟩, by decide⟩, ⟨_, rfl⟩, by decide⟩
theorem test_witness_IgnoredBitsChangeOnlyTheLength_fault :
    ∃ e, exec (.movFromCr0 plain 0#4) { longState with cpl := 1 } = .fault e := ⟨_, rfl⟩
/-- W0-5. -/
theorem test_witness_IgnoredBitsChangeOnlyTheLength_refused :
    ∃ e, exec (.movToCr0 plain 0#4) (machine .prot32 0 (crs 0x60000011#64) 0#4 0x20000011#64) = .refused e ∧ e ≠ .pcOverflow :=
  ⟨_, rfl, by decide⟩

theorem test_witness_StepRunsTheDecodedInstruction :
    (∃ rest, decode storedState.mode storedState.fetched.1 = .ok (storedInstr, rest)) ∧ storedState.env = [] := ⟨⟨[], rfl⟩, rfl⟩
theorem test_witness_StepRunsTheDecodedInstruction_scheduled :
    (∃ rest, decode storedState.mode { storedState with env := [.instr] }.fetched.1 = .ok (storedInstr, rest)) ∧
      ∃ es, { storedState with env := [.instr] }.env = .instr :: es := ⟨⟨[], rfl⟩, [], rfl⟩
/-- The instruction ends with the last byte of the address space. -/
theorem test_witness_StepRunsTheInstructionStoredAtPc :
    let s := { longState with
      pc := 0xFFFFFFFFFFFFFFFD#64
      mem := [(2 ^ 64 - 3, 0x0F#8), (2 ^ 64 - 2, 0x20#8), (2 ^ 64 - 1, 0xC0#8)] }
    let i := Instr.movFromCr0 plain 0#4
    s.env = [] ∧ i.wellFormed s.mode = true ∧ s.ip + (encode i).length ≤ pcLimit s.mode ∧
      ∀ k (h : k < (encode i).length), Memory.read1 s.mem (s.ip + k) = some (encode i)[k] := by decide
theorem test_witness_StepTakesTheScheduledEvent :
    ∃ es, (scheduled longState (.pageFault 5#64)).env = .event (.pageFault 5#64) :: es := ⟨[], rfl⟩
/-- With an empty schedule, and with one that lets an instruction run. -/
theorem test_witness_BytesThatDoNotDecodeStopTheStep_notAMovCrn :
    let s := { longState with mem := [(0x1000, 0x90#8)] }
    decode s.mode s.fetched.1 = .error .notAMovCrn ∧ s.env = [] ∧ ∃ es, { s with env := [.instr] }.env = .instr :: es :=
  ⟨rfl, rfl, [], rfl⟩
theorem test_witness_BytesThatDoNotDecodeStopTheStep_lock :
    decode .long64 { longState with
      mem := [(0x1000, 0xF0#8), (0x1001, 0x0F#8), (0x1002, 0x20#8), (0x1003, 0xC0#8)] }.fetched.1 = .error .lockPrefix := rfl
theorem test_witness_BytesThatDoNotDecodeStopTheStep_repeat :
    decode .long64 { longState with
      mem := [(0x1000, 0xF2#8), (0x1001, 0x0F#8), (0x1002, 0x20#8), (0x1003, 0xC0#8)] }.fetched.1 = .error .repeatPrefix := rfl
theorem test_witness_BytesThatDoNotDecodeStopTheStep_tooMany :
    decode .long64 { longState with
      mem := [(0x1000, 0x66#8), (0x1001, 0x66#8), (0x1002, 0x66#8), (0x1003, 0x66#8), (0x1004, 0x66#8)] }.fetched.1 =
        .error .tooManyPrefixes := rfl
theorem test_witness_BytesThatDoNotDecodeStopTheStep_top :
    let s := { longState with pc := 0xFFFFFFFFFFFFFFFF#64, mem := [(2 ^ 64 - 1, 0x0F#8)] }
    decode s.mode s.fetched.1 = .error .truncated ∧ s.fetched.2 = .top := ⟨rfl, rfl⟩
theorem test_witness_BytesThatDoNotDecodeStopTheStep_unwritten :
    decode State.reset.mode State.reset.fetched.1 = .error .truncated ∧ State.reset.fetched.2 = .unwritten 0xFFFFFFF0 := ⟨rfl, rfl⟩

/-- CPL 0 outside real mode, with pc three bytes and one below the limit; and real mode at CPL 3. -/
theorem test_witness_ReadsOfCr0Cr2Cr3Cr4Complete :
    { protState with pc := 0xFFFFFFFC#64 }.mayRun plain.len ∧ { protState with mode := .real, cpl := 3 }.mayRun plain.len :=
  ⟨⟨.inr rfl, by decide⟩, .inl rfl, by decide⟩
theorem test_witness_ReadOfCr8Completes : longState.mode = .long64 ∧ longState.mayRun withRex.len := ⟨rfl, .inr rfl, by decide⟩
theorem longState_inv : longState.Inv := by constructor <;> decide
theorem test_witness_ReadsShowHardwiredAndReservedBits :
    longState.Inv ∧ longState.mayRun plain.len ∧ longState.mode = .long64 ∧ etHardwired longState.cfg.family = true :=
  ⟨longState_inv, ⟨.inr rfl, by decide⟩, rfl, rfl⟩

/-- Paging turned on in protected mode; and in 64-bit mode EM set, PE and PG as they were. -/
theorem test_witness_MovToCr0Commits :
    (∃ v, v = protState.srcValue 0#32 0#4 ∧ protState.mayRun plain.len ∧ upper32 v = 0#32 ∧
      ¬ (v.getLsbD 31 = true ∧ v.getLsbD 0 = false) ∧ ¬ (v.getLsbD 29 = true ∧ v.getLsbD 30 = false) ∧
      ¬ (protState.mode = .long64 ∧ protState.cr.cr0.getLsbD 31 = true ∧ v.getLsbD 31 = false) ∧
      ¬ (protState.cr.cr0.getLsbD 31 = false ∧ v.getLsbD 31 = true ∧ protState.activationOk = false) ∧
      (v ^^^ protState.cr.cr0) &&& cr0Reserved protState.cfg = 0#64) ∧
    (∃ v, v = longState.srcValue 0#32 1#4 ∧ longState.mayRun plain.len ∧ upper32 v = 0#32 ∧
      ¬ (v.getLsbD 31 = true ∧ v.getLsbD 0 = false) ∧ ¬ (v.getLsbD 29 = true ∧ v.getLsbD 30 = false) ∧
      ¬ (longState.mode = .long64 ∧ longState.cr.cr0.getLsbD 31 = true ∧ v.getLsbD 31 = false) ∧
      ¬ (longState.cr.cr0.getLsbD 31 = false ∧ v.getLsbD 31 = true ∧ longState.activationOk = false) ∧
      (v ^^^ longState.cr.cr0) &&& cr0Reserved longState.cfg = 0#64 ∧
      v.getLsbD 0 = longState.cr.cr0.getLsbD 0 ∧ v.getLsbD 31 = longState.cr.cr0.getLsbD 31) :=
  ⟨⟨_, rfl, ⟨.inr rfl, by decide⟩, by decide⟩, _, rfl, ⟨.inr rfl, by decide⟩, by decide⟩
/-- Bit 32 alone (W0-9); PG without PE (W0-2). -/
theorem test_witness_MovToCr0RaisesGp :
    upper32 ((machine .long64 0 (crs 0x80050033#64) 0#4 0x180050033#64).srcValue 0#32 0#4) ≠ 0#32 ∧
      (((machine .real 0 (crs 0x60000010#64) 0#4 0xE0000010#64).srcValue 0#32 0#4).getLsbD 31 = true ∧
        ((machine .real 0 (crs 0x60000010#64) 0#4 0xE0000010#64).srcValue 0#32 0#4).getLsbD 0 = false) := by decide
/-- W0-5, W0-10, W0-7 without the activation input, W0-8. -/
def refusedLoads : List State :=
  [machine .prot32 0 (crs 0x60000011#64) 0#4 0x20000011#64, machine .long64 0 (crs 0x80050033#64) 0#4 0x50033#64,
    { protState with activationOk := false }, machine .prot32 0 (crs 0x80000011#64) 0#4 0x80000051#64]
theorem test_witness_MovToCr0RefusesInOrder :
    ∀ s ∈ refusedLoads, (s.mode = .real ∨ s.cpl = 0) ∧ upper32 (s.srcValue 0#32 0#4) = 0#32 ∧
      ¬ ((s.srcValue 0#32 0#4).getLsbD 31 = true ∧ (s.srcValue 0#32 0#4).getLsbD 0 = false) := by decide
theorem test_witness_MovToCr0RefusesInOrder_each :
    refusedLoads.map (fun s => refusalOf (exec (.movToCr0 plain 0#4) s)) =
      [some .cr0NwWithoutCd, some .cr0PgClearedIn64BitMode, some .cr0PagingEnableConditions, some .cr0ReservedBitsChanged] := by
  decide
theorem test_witness_MovToCr2Completes : longState.mayRun plain.len ∧ protState.mayRun plain.len :=
  ⟨⟨.inr rfl, by decide⟩, .inr rfl, by decide⟩
/-- A base up to bit 39; and a 32-bit write under the policy `zero`. -/
theorem test_witness_MovToCr3Completes :
    let s := machine .long64 0 (crs 0x80050033#64) 0#4 0xFFFFFFF018#64
    s.mayRun plain.len ∧ (s.srcValue s.upper3 0#4).extractLsb' 40 12 = 0#12 ∧
      (s.srcValue s.upper3 0#4 ^^^ s.cr.cr3) &&& cr3RsvdOther s.cfg = 0#64 := ⟨⟨.inr rfl, by decide⟩, by decide, by decide⟩
theorem test_witness_MovToCr3Completes_short :
    let s := { machine .prot32 0 (crs 0x11#64) 0#4 0x200000#64 with cfg := { Config.default with upper32 := .zero } }
    s.mayRun plain.len ∧ (s.srcValue s.upper3 0#4).extractLsb' 40 12 = 0#12 ∧
      (s.srcValue s.upper3 0#4 ^^^ s.cr.cr3) &&& cr3RsvdOther s.cfg = 0#64 := ⟨⟨.inr rfl, by decide⟩, by decide, by decide⟩
/-- W3-2 and W3-3 for the first refusal, W3-4 for the second. -/
theorem test_witness_MovToCr3RefusesInOrder :
    let s := fun v => machine .long64 0 (crs 0x80050033#64) 0#4 v
    let v := fun x => (s x).srcValue (s x).upper3 0#4
    (∀ x, (s x).mode = .real ∨ (s x).cpl = 0) ∧ (v 0x10000200000#64).extractLsb' 40 12 ≠ 0#12 ∧
      (v 0x8000000200000#64).extractLsb' 40 12 ≠ 0#12 ∧ (v 0x10000000200000#64).extractLsb' 40 12 = 0#12 ∧
      (v 0x10000000200000#64 ^^^ (s 0x10000000200000#64).cr.cr3) &&& cr3RsvdOther (s 0x10000000200000#64).cfg ≠ 0#64 :=
  ⟨fun _ => .inr rfl, by decide, by decide, by decide, by decide⟩
theorem test_witness_MovToCr4Completes :
    let s := machine .compat 0 ⟨0x80050033#64, 0#64, 0#64, 0xA0#64, 0#64⟩ 0#4 0x20#64
    let v := s.srcValue 0#32 0#4
    s.mayRun plain.len ∧ upper32 v = 0#32 ∧ (v ^^^ s.cr.cr4) &&& cr4Reserved s.cfg = 0#64 ∧
      ¬ ((s.mode = .compat ∨ s.mode = .long64) ∧ v.getLsbD 5 ≠ s.cr.cr4.getLsbD 5) :=
  ⟨⟨.inr rfl, by decide⟩, by decide, by decide, by decide⟩
/-- W4-8, W4-5, W4-10. -/
theorem test_witness_MovToCr4RaisesAndRefusesInOrder :
    let a := machine .long64 0 ⟨0x80050033#64, 0#64, 0#64, 0x20#64, 0#64⟩ 1#4 0x8000000000000820#64
    let b := machine .prot32 0 (crs 0x11#64) 1#4 0x800#64
    let c := machine .compat 0 ⟨0x80050033#64, 0#64, 0#64, 0xA0#64, 0#64⟩ 1#4 0x80#64
    upper32 (a.srcValue 0#32 1#4) ≠ 0#32 ∧
      ((b.mode = .real ∨ b.cpl = 0) ∧ upper32 (b.srcValue 0#32 1#4) = 0#32 ∧
        (b.srcValue 0#32 1#4 ^^^ b.cr.cr4) &&& cr4Reserved b.cfg ≠ 0#64) ∧
      (c.mode = .real ∨ c.cpl = 0) ∧ upper32 (c.srcValue 0#32 1#4) = 0#32 ∧
      (c.srcValue 0#32 1#4 ^^^ c.cr.cr4) &&& cr4Reserved c.cfg = 0#64 ∧ (c.mode = .compat ∨ c.mode = .long64) ∧
      (c.srcValue 0#32 1#4).getLsbD 5 ≠ c.cr.cr4.getLsbD 5 := by decide
/-- The threshold 15, the largest; and W8-2. -/
theorem test_witness_MovToCr8CompletesOrRefuses :
    longState.mode = .long64 ∧ longState.mayRun withRex.len ∧ 15#64 &&& ~~~ tprMask longState.cfg = 0#64 ∧
      16#64 &&& ~~~ tprMask longState.cfg ≠ 0#64 := ⟨rfl, ⟨.inr rfl, by decide⟩, by decide, by decide⟩
theorem test_witness_WidthOfAWriteFollowsTheMode :
    let s := machine .long64 0 ⟨0x80050033#64, 0#64, 0#64, 0#64, 0#64⟩ 0#4 0#64
    let z := { protState with cfg := { Config.default with upper32 := .zero } }
    (∃ t, exec (.movToCr0 plain 1#4) longState = .next t) ∧ (∃ t, exec (.movToCr4 plain 0#4) s = .next t) ∧
      (∃ t, exec (.movToCr2 plain 0#4) s = .next t) ∧ (∃ t, exec (.movToCr3 plain 0#4) s = .next t) ∧
      (∃ t, exec (.movToCr2 plain 0#4) z = .next t) ∧ (∃ t, exec (.movToCr3 plain 3#4) z = .next t) ∧
      z.mode ≠ .long64 ∧ z.cfg.upper32 = .zero :=
  ⟨⟨_, rfl⟩, ⟨_, rfl⟩, ⟨_, rfl⟩, ⟨_, rfl⟩, ⟨_, rfl⟩, ⟨_, rfl⟩, by decide, rfl⟩
/-- The clause of CR0 with PE and PG as they were, and with PG changed outside 64-bit mode. -/
theorem test_witness_WriteThenReadReturnsTheValueWritten :
    let s := machine .long64 0 ⟨0x80050033#64, 0#64, 0#64, 0#64, 0#64⟩ 0#4 0#64
    (s.mode = .real ∨ s.cpl = 0) ∧ s.mode = .long64 ∧ etHardwired longState.cfg.family = true ∧
      (∃ t, exec (.movToCr0 plain 1#4) longState = .next t ∧ t.pcFits plain.len = true ∧ t.cpl = 0 ∧ t.mode = .long64) ∧
      (∃ t, exec (.movToCr0 plain 0#4) protState = .next t ∧ t.pcFits plain.len = true ∧ t.cpl = 0) ∧
      (∃ t, exec (.movToCr2 plain 0#4) s = .next t ∧ t.pcFits plain.len = true) ∧
      (∃ t, exec (.movToCr3 plain 0#4) s = .next t ∧ t.pcFits plain.len = true) ∧
      (∃ t, exec (.movToCr4 plain 0#4) s = .next t ∧ t.pcFits plain.len = true) ∧
      (∃ t, exec (.movToCr8 withRex 0#4) s = .next t ∧ t.pcFits withRex.len = true) :=
  ⟨.inr rfl, rfl, rfl, ⟨_, rfl, by decide, rfl, rfl⟩, ⟨_, rfl, by decide, rfl⟩, ⟨_, rfl, by decide⟩, ⟨_, rfl, by decide⟩,
    ⟨_, rfl, by decide⟩, _, rfl, by decide⟩
theorem test_witness_WritingBackTheValueReadChangesNothing :
    longState.Inv ∧ longState.mode = .long64 ∧ ¬ (longState.cr.cr0.getLsbD 29 = true ∧ longState.cr.cr0.getLsbD 30 = false) ∧
      (∃ t, exec (.movFromCr0 plain 0#4) longState = .next t ∧ t.pcFits plain.len = true) ∧
      (∃ t, exec (.movFromCr2 plain 0#4) longState = .next t ∧ t.pcFits plain.len = true) ∧
      (∃ t, exec (.movFromCr3 plain 0#4) longState = .next t ∧ t.pcFits plain.len = true) ∧
      (∃ t, exec (.movFromCr4 plain 0#4) longState = .next t ∧ t.pcFits plain.len = true) ∧
      (∃ t, exec (.movFromCr8 withRex 0#4) longState = .next t ∧ t.pcFits withRex.len = true) :=
  ⟨longState_inv, rfl, by decide, ⟨_, rfl, by decide⟩, ⟨_, rfl, by decide⟩, ⟨_, rfl, by decide⟩, ⟨_, rfl, by decide⟩, _, rfl,
    by decide⟩
theorem test_witness_PrivilegeViolationRaisesGp :
    hasRegister (Instr.movToCr8 withRex 0#4).crNum = true ∧ { longState with cpl := 1 }.mode ≠ .real ∧
      { longState with cpl := 1 }.cpl ≠ 0 := by decide
/-- Each of the four causes. -/
theorem test_witness_GpHasOneOfItsFourCauses :
    (∃ e, exec (.movFromCr8 withRex 0#4) { longState with cpl := 2 } = .fault e) ∧
    (∃ e, exec (.movToCr0 plain 0#4) (machine .long64 0 (crs 0x80050033#64) 0#4 0x180050033#64) = .fault e) ∧
    (∃ e, exec (.movToCr4 plain 0#4) (machine .long64 0 (crs 0x80050033#64) 0#4 0x8000000000000000#64) = .fault e) ∧
    (∃ e, exec (.movToCr0 plain 0#4) (machine .real 3 (crs 0x60000010#64) 0#4 0xE0000010#64) = .fault e) :=
  ⟨⟨_, rfl⟩, ⟨_, rfl⟩, ⟨_, rfl⟩, _, rfl⟩
theorem test_witness_CompletionAdvancesPcByTheLength :
    ∃ t, exec (.movFromCr0 plain 0#4) { protState with pc := 0xFFFFFFFC#64 } = .next t := ⟨_, rfl⟩

/-! #### Events -/

theorem test_witness_PageFaultWritesCr2 :
    (∃ es, (scheduled longState (.pageFault 5#64)).env = .event (.pageFault 5#64) :: es) ∧
      longState.cr.cr0.getLsbD 31 = true := ⟨⟨[], rfl⟩, by decide⟩
theorem test_witness_WithoutPagingAddressesArePhysical :
    protState.cr.cr0.getLsbD 31 = false ∧
      ∃ es, (scheduled protState (.pageFault 5#64)).env = .event (.pageFault 5#64) :: es := ⟨by decide, [], rfl⟩
theorem test_witness_WithoutPeNoTranslation : (machine .real 0 (crs 0x80000010#64) 0#4 0#64).cr.cr0.getLsbD 0 = false := by decide
/-- A permitted value up to bit 39. -/
theorem test_witness_TaskSwitchSetsTs :
    (0xFFFFFFF018#64).extractLsb' 40 12 = 0#12 ∧
      0xFFFFFFF018#64 &&& cr3RsvdOther longState.cfg = longState.cr.cr3 &&& cr3RsvdOther longState.cfg ∧
      ∃ es, (scheduled longState (.taskSwitch 0xFFFFFFF018#64)).env = .event (.taskSwitch 0xFFFFFFF018#64) :: es :=
  ⟨by decide, by decide, [], rfl⟩
/-- Bit 40, bit 51 and a changed reserved bit are not permitted; then a state and a mode for each way to break R141 or R143. -/
theorem test_witness_EventsThatCannotOccurAreRefused :
    ((∃ es, (scheduled protState (.pageFault 5#64)).env = .event (.pageFault 5#64) :: es) ∧
      protState.cr.cr0.getLsbD 31 = false) ∧
    ((∃ es, (scheduled longState (.taskSwitch 1#64)).env = .event (.taskSwitch 1#64) :: es) ∧
      (0x10000000000#64).extractLsb' 40 12 ≠ 0#12 ∧ (0x8000000000000#64).extractLsb' 40 12 ≠ 0#12 ∧
      1#64 &&& cr3RsvdOther longState.cfg ≠ longState.cr.cr3 &&& cr3RsvdOther longState.cfg) ∧
    (∃ es, (scheduled protState (.setModeCpl .v86 2)).env = .event (.setModeCpl .v86 2) :: es) ∧
    ((2 : Fin 4) ≠ 3 ∧ protState.cr.cr0.getLsbD 0 = true ∧ State.reset.cr.cr0.getLsbD 0 = false ∧
      isIa32e .compat = true ∧ ¬ (protState.cr.cr0.getLsbD 31 = true ∧ protState.cr.cr0.getLsbD 0 = true) ∧
      isIa32e .prot32 ≠ isIa32e longState.mode ∧ ¬ (Mode.real = .real ↔ longState.mode = .real)) :=
  ⟨⟨⟨[], rfl⟩, by decide⟩, ⟨⟨[], rfl⟩, by decide, by decide, by decide⟩, ⟨[], rfl⟩, by decide⟩
theorem test_witness_TprFiltersExternalInterrupts :
    longState.cfg.tprHi = 3 ∧ longState.cfg.tprLo = 0 ∧
      ∃ es, (scheduled longState (.externalInterrupt 10#4)).env = .event (.externalInterrupt 10#4) :: es := ⟨rfl, rfl, [], rfl⟩
theorem test_witness_X87ErrorsAreReportedByNe :
    (∃ es, (scheduled longState (.x87Error true)).env = .event (.x87Error true) :: es) ∧ longState.cr.cr0.getLsbD 5 = true ∧
      protState.cr.cr0.getLsbD 5 = false ∧ { protState with ignne := true }.ignne = true ∧ protState.ignne = false ∧
      ∃ es, (scheduled longState (.x87Error false)).env = .event (.x87Error false) :: es :=
  ⟨⟨[], rfl⟩, by decide, by decide, rfl, rfl, [], rfl⟩
/-- Into virtual-8086 mode by an event; out of real-address mode, into it, and into IA-32e mode with a MOV to CR0 that changes PE or
PG. -/
theorem test_witness_ModeChangesObeyTheirConstraints :
    (∃ t, step (scheduled protState (.setModeCpl .v86 3)) = .next t ∧ t.mode = .v86) ∧
    (∃ t, step (enteringProtected.withFetchWord 24 0x0F2200) = .next t ∧ t.mode ≠ enteringProtected.mode) ∧
    (∃ t, step ((protState.setGpr 0#4 0x10#64).withFetchWord 24 0x0F2200) = .next t ∧ t.mode = .real) ∧
    (∃ t, step (enteringIa32e.withFetchWord 24 0x0F2200) = .next t ∧ isIa32e t.mode ≠ isIa32e protState.mode) :=
  ⟨⟨_, rfl, rfl⟩, ⟨_, rfl, by decide⟩, ⟨_, rfl, rfl⟩, _, rfl, by decide⟩
theorem test_witness_OnlyMovToCr0ThatChangesPgAllowsIa32eChange :
    (enteringIa32e.withFetchWord 24 0x0F2200).Inv ∧ (enteringProtected.withFetchWord 24 0x0F2200).Inv ∧
    (∃ t, step (enteringIa32e.withFetchWord 24 0x0F2200) = .next t ∧ isIa32e t.mode ≠ isIa32e enteringIa32e.mode) ∧
    (∃ t, step (enteringProtected.withFetchWord 24 0x0F2200) = .next t ∧ ¬ (t.mode = .real ↔ enteringProtected.mode = .real)) :=
  ⟨by constructor <;> decide, by constructor <;> decide, ⟨_, rfl, by decide⟩, _, rfl, by decide⟩
theorem test_witness_InputEventsChangeOneInput :
    (∃ es, (scheduled longState (.setIgnne true)).env = .event (.setIgnne true) :: es) ∧
      (∃ es, (scheduled longState (.setAc true)).env = .event (.setAc true) :: es) ∧
      (∃ es, (scheduled longState (.setPaeEnabled true)).env = .event (.setPaeEnabled true) :: es) ∧
      (∃ es, (scheduled longState (.setActivationOk false)).env = .event (.setActivationOk false) :: es) ∧
      ∃ es, (scheduled longState (.setModeInput (some (.v86, 3)))).env = .event (.setModeInput (some (.v86, 3))) :: es :=
  ⟨⟨[], rfl⟩, ⟨[], rfl⟩, ⟨[], rfl⟩, ⟨[], rfl⟩, [], rfl⟩

/-! #### Whole-machine statements -/

theorem test_witness_EveryStepKeepsTheInvariant : longState.Inv ∧ ∃ t, step (longState.withFetchWord 24 0x0F2018) = .next t :=
  ⟨longState_inv, _, rfl⟩
theorem withFetchWord_inv : (longState.withFetchWord 24 0x0F2018).Inv := by constructor <;> decide
/-- Each control register does change by each of its writers. -/
theorem test_witness_OnlyTheNamedWritersChangeControlRegisters :
    (∃ t, step (protState.withFetchWord 24 0x0F2200) = .next t ∧ t.cr.cr0 ≠ protState.cr.cr0) ∧
    (∃ t, step (scheduled longState (.taskSwitch 0#64)) = .next t ∧ t.cr.cr0 ≠ longState.cr.cr0 ∧ t.cr.cr3 ≠ longState.cr.cr3) ∧
    (∃ t, step (scheduled longState (.pageFault 6#64)) = .next t ∧ t.cr.cr2 ≠ longState.cr.cr2) ∧
    (∃ t, step (longState.withFetchWord 24 0x0F2210) = .next t ∧ t.cr.cr2 ≠ longState.cr.cr2) ∧
    (∃ t, step (longState.withFetchWord 24 0x0F2218) = .next t ∧ t.cr.cr3 ≠ longState.cr.cr3) ∧
    (∃ t, step ((machine .long64 0 (crs 0x80050033#64) 0#4 0x80#64).withFetchWord 24 0x0F2220) = .next t ∧ t.cr.cr4 ≠ 0#64) ∧
    (∃ t, step storedState = .next t ∧ t.cr.cr8 ≠ storedState.cr.cr8) :=
  ⟨⟨_, rfl, by decide⟩, ⟨_, rfl, by decide⟩, ⟨_, rfl, by decide⟩, ⟨_, rfl, by decide⟩, ⟨_, rfl, by decide⟩,
    ⟨_, rfl, by decide⟩, _, rfl, by decide⟩
theorem test_witness_ReservedBitsNeverChange :
    storedState.Inv ∧ cr0MaskOk storedState.cfg = true ∧ etHardwired storedState.cfg.family = true ∧ ∃ t, step storedState = .next t :=
  ⟨by constructor <;> decide, by decide, rfl, _, rfl⟩
theorem test_witness_StepsWriteNoMemory :
    (∃ t, step storedState = .next t) ∧ (scheduled longState (.setAc true)).takes (.setAc true) ∧
      ∃ t, step (scheduled longState (.setAc true)) = .next t ∧ t.ac ≠ longState.ac := ⟨⟨_, rfl⟩, ⟨[], rfl⟩, _, rfl, by decide⟩
theorem test_witness_UnprivilegedStepRevealsNothing :
    { storedState with cpl := 1 }.mode ≠ .real ∧ { storedState with cpl := 1 }.cpl ≠ 0 ∧ { storedState with cpl := 1 }.env = [] ∧
      ∃ es, { storedState with cpl := 3, env := [.instr] }.env = .instr :: es := ⟨by decide, by decide, rfl, [], rfl⟩
theorem test_witness_PageDirectoryBaseIsAligned : Mode.compat ≠ .long64 := by decide
/-- A store that ends with the last byte of the address space. -/
theorem test_witness_StoreThenLoadIsLittleEndian :
    (2 ^ 64 - 8) + 8 ≤ 2 ^ 64 ∧ 7 < 8 ∧ (2 ^ 64 - 9 < 2 ^ 64 - 8 ∨ (2 ^ 64 - 8) + 8 ≤ 2 ^ 64 - 9) := by decide

/-! #### Mode changes, and the masks in every state -/

/-- PE changed and PG changed, the environment wanting a mode that is allowed; and PG changed where it wants no other. -/
theorem test_witness_MovToCr0TakesTheEnvironmentsMode :
    (∃ t, exec (.movToCr0 plain 0#4) enteringProtected = .next t ∧
      t.cr.cr0.getLsbD 0 ≠ enteringProtected.cr.cr0.getLsbD 0 ∧ enteringProtected.modeInput = some (.prot32, 0) ∧
      enteringProtected.modeAllowed t.cr.cr0 .prot32 0 = true) ∧
    (∃ t, exec (.movToCr0 plain 0#4) enteringIa32e = .next t ∧
      t.cr.cr0.getLsbD 31 ≠ enteringIa32e.cr.cr0.getLsbD 31 ∧ enteringIa32e.modeInput = some (.compat, 0) ∧
      enteringIa32e.modeAllowed t.cr.cr0 .compat 0 = true) ∧
    (∃ t, exec (.movToCr0 plain 0#4) protState = .next t ∧ t.cr.cr0.getLsbD 31 ≠ protState.cr.cr0.getLsbD 31 ∧
      protState.modeInput = none ∧ protState.modeAllowed t.cr.cr0 protState.mode protState.cpl = true) :=
  ⟨⟨_, rfl, by decide, rfl, by decide⟩, ⟨_, rfl, by decide, rfl, by decide⟩, _, rfl, by decide, rfl, by decide⟩
/-- Into virtual-8086 mode, and between the two modes of IA-32e mode. -/
theorem test_witness_ModeEventsTakeEffect :
    ((∃ es, (scheduled protState (.setModeCpl .v86 3)).env = .event (.setModeCpl .v86 3) :: es) ∧
      protState.cr.cr0.getLsbD 0 = true ∧ isIa32e .v86 = isIa32e protState.mode ∧ (Mode.v86 = .real ↔ protState.mode = .real)) ∧
    ((∃ es, (scheduled longState (.setModeCpl .compat 3)).env = .event (.setModeCpl .compat 3) :: es) ∧
      longState.cr.cr0.getLsbD 31 = true ∧ longState.cr.cr0.getLsbD 0 = true ∧ isIa32e .compat = isIa32e longState.mode ∧
      (Mode.compat = .real ↔ longState.mode = .real)) :=
  ⟨⟨⟨[], rfl⟩, by decide, by decide, by decide⟩, ⟨[], rfl⟩, by decide, by decide, by decide, by decide⟩
theorem test_witness_MaskedBitsNeverChange : cr0MaskOk longState.cfg = true ∧ ∃ t, step storedState = .next t :=
  ⟨by decide, _, rfl⟩

end Sys2Proof.Tests
end

section
/-!
The WP rule of 20_memory.md R54: which accesses `State.writeAllowedByWp` inhibits.
-/

namespace Sys2Proof.Machine

/-- WP is bit 16 of CR0 (R20). -/
theorem cr0Wp_eq_getLsbD (v : Word) : cr0Wp v = v.getLsbD 16 := rfl

theorem State.writeAllowedByWp_eq_false_iff (s : State) (a : PageAccess) :
    s.writeAllowedByWp a = false ↔
      a.isWrite = true ∧ a.supervisor = true ∧ a.userPage = true ∧ a.readOnly = true ∧ cr0Wp s.cr.cr0 = true := by
  simp only [State.writeAllowedByWp, Bool.not_eq_false', Bool.and_eq_true, and_assoc]

/-- Settles O49: the inhibited accesses, with WP read as the bit of CR0 that it is. -/
theorem writeProtectCondition : Obligations.WriteProtectCondition := by
  intro s a
  rw [← cr0Wp_eq_getLsbD]
  exact s.writeAllowedByWp_eq_false_iff a

end Sys2Proof.Machine
end

section
/-!
The reserved control-register numbers of 40_mov_crn.md R98: what `exec` answers is a matter of the number alone.
-/

namespace Sys2Proof.Machine

/-- R85 step 1 comes before every other check, so neither the state nor the operands nor the direction matters. -/
theorem exec_of_not_hasRegister (i : Instr) (s : State) (h : hasRegister i.crNum = false) :
    exec i s = .refused (.reservedControlRegister i.crNum.toNat) := by
  cases i with
  | movFromCr0 | movFromCr2 | movFromCr3 | movFromCr4 | movFromCr8 => exact nomatch h
  | movToCr0 | movToCr2 | movToCr3 | movToCr4 | movToCr8 => exact nomatch h
  | _ f r => rfl

/-- Settles O27: none of the 22 moves names a number with a register behind it. -/
theorem reservedNumbersAreRefused : Obligations.ReservedNumbersAreRefused := by
  intro s f r
  and_intros <;> exact exec_of_not_hasRegister _ s rfl

end Sys2Proof.Machine
end

section
/-!
The encoding of 30_encoding.md R70 to R80: what the decoder reads from the bytes `encode` writes, and what bytes that decode are.
-/

namespace Sys2Proof

/-! ### The parts of an encoding -/

/-- The REX byte of an instruction, if its form has one (R70). -/
def Instr.rexByte? (i : Instr) : Option Byte :=
  i.form.rex.map fun rb => rexByte rb (i.crNum.getLsbD 3) (i.gpr.getLsbD 3)

/-- The ModRM byte of an instruction (R71). -/
def Instr.modrm (i : Instr) : Byte := modrmByte i.form.mod i.crNum i.gpr

/-- The bytes of an encoding behind its legacy prefixes. -/
def Instr.tailBytes (i : Instr) : List Byte := i.rexByte?.toList ++ [0x0F#8, i.dir.opcode2, i.modrm]

theorem rexBytes_eq (i : Instr) : rexBytes i.form i.crNum i.gpr = i.rexByte?.toList := by
  unfold rexBytes Instr.rexByte?
  cases i.form.rex <;> rfl

theorem encode_eq (i : Instr) : encode i = i.form.prefixes.map LegacyPrefix.byte ++ i.tailBytes := by
  rw [encode, rexBytes_eq, Instr.tailBytes, Instr.modrm, List.append_assoc]

theorem Instr.wellFormed_iff (m : Mode) (i : Instr) :
    i.wellFormed m = true ↔ i.form.prefixes.length ≤ maxPrefixes ∧ (i.form.rex = none ∨ m = .long64) ∧
      (i.form.rex.isSome = true ∨ i.crNum < 8#4) ∧ (i.form.rex.isSome = true ∨ i.gpr < 8#4) := by
  simp [Instr.wellFormed, Form.prefixesOk, Form.rexOk, Form.numberOk, and_assoc]

@[simp] theorem Dir.ofOpcode2_opcode2 (d : Dir) : Dir.ofOpcode2 d.opcode2 = some d := by
  cases d <;> rfl

/-! ### Reading what `encode` writes -/

/-- A byte that R75 lists is taken off. -/
theorem takePrefixes_cons_of_some {b : Byte} {p : PrefixByte} (h : PrefixByte.ofByte b = some p) (bs : List Byte) :
    takePrefixes (b :: bs) = (p :: (takePrefixes bs).1, (takePrefixes bs).2) := by
  simp [takePrefixes, h]

theorem takePrefixes_tailBytes (i : Instr) (rest : List Byte) :
    takePrefixes (i.tailBytes ++ rest) = ([], i.tailBytes ++ rest) := by
  unfold Instr.tailBytes Instr.rexByte?
  cases i.form.rex with
  | none => exact takePrefixes_of_none _ _ rfl
  | some rb => exact takePrefixes_of_none _ _ (rexByte_notPrefix rb _ _)

theorem takeRex_of_isRex {m : Mode} {b : Byte} (h : m = .long64 ∧ isRex b = true) (bs : List Byte) :
    takeRex m (b :: bs) = (some b, bs) := if_pos h

theorem takeRex_of_not {m : Mode} {b : Byte} (h : ¬ (m = .long64 ∧ isRex b = true)) (bs : List Byte) :
    takeRex m (b :: bs) = (none, b :: bs) := if_neg h

theorem takeRex_tailBytes {m : Mode} {i : Instr} (h : i.form.rex = none ∨ m = .long64) (rest : List Byte) :
    takeRex m (i.tailBytes ++ rest) = (i.rexByte?, 0x0F#8 :: i.dir.opcode2 :: i.modrm :: rest) := by
  unfold Instr.tailBytes Instr.rexByte?
  cases hr : i.form.rex with
  | none => exact takeRex_of_not (fun hx => absurd hx.2 (by decide)) _
  | some rb =>
    have hm : m = .long64 := h.resolve_left (by simp [hr])
    exact takeRex_of_isRex ⟨hm, rexByte_isRex rb _ _⟩ _

theorem takeOpcode_opcode2 (d : Dir) (modrm : Byte) (rest : List Byte) :
    takeOpcode (0x0F#8 :: d.opcode2 :: modrm :: rest) = .ok (d, modrm, rest) := by
  simp [takeOpcode]

/-- The control-register number is read back: its high bit from the REX byte, its low bits from ModRM (R72). -/
theorem crNumber_rexByte? {i : Instr} (h : i.form.rex.isSome = true ∨ i.crNum < 8#4) :
    crNumber i.rexByte? i.modrm = i.crNum := by
  unfold crNumber Instr.rexByte? Instr.modrm
  cases hr : i.form.rex with
  | none => simpa [rexR] using joinNumber_low _ (h.resolve_left (by simp [hr]))
  | some rb => rw [Option.map_some, rexByte_r, modrmByte_reg, joinNumber_split]

/-- The general-register number is read back (R72). -/
theorem gprNumber_rexByte? {i : Instr} (h : i.form.rex.isSome = true ∨ i.gpr < 8#4) :
    gprNumber i.rexByte? i.modrm = i.gpr := by
  unfold gprNumber Instr.rexByte? Instr.modrm
  cases hr : i.form.rex with
  | none => simpa [rexB] using joinNumber_low _ (h.resolve_left (by simp [hr]))
  | some rb => rw [Option.map_some, rexByte_b, modrmByte_rm, joinNumber_split]

theorem rexByte?_bits (i : Instr) : i.rexByte?.map RexBits.ofByte = i.form.rex := by
  unfold Instr.rexByte?
  cases i.form.rex <;> simp

/-- What the decoder says of an encoding behind any legacy prefixes, at most four of them: LOCK and repeat are refused, the others
are kept in the form (R75, R77). -/
theorem decode_of_takePrefixes {m : Mode} {i : Instr} {bs rest : List Byte} {ps : List PrefixByte}
    (hw : i.wellFormed m = true) (hp : takePrefixes bs = (ps, i.tailBytes ++ rest)) (hl : ps.length ≤ maxPrefixes) :
    decode m bs =
      if ps.contains .lock then .error .lockPrefix
      else if ps.contains .repeated then .error .repeatPrefix
      else .ok (Instr.ofFields i.dir i.crNum { i.form with prefixes := ignoredOnly ps } i.gpr, rest) := by
  obtain ⟨-, hrex, hn, hr⟩ := (i.wellFormed_iff m).mp hw
  have hmod : i.modrm.extractLsb' 6 2 = i.form.mod := modrmByte_mod _ _ _
  simp only [decode, hp, if_pos hl, takeRex_tailBytes hrex, takeOpcode_opcode2, crNumber_rexByte? hn, gprNumber_rexByte? hr,
    rexByte?_bits, hmod]

/-- Settles O1: the three parts of the decoder read back the three parts of the encoding. -/
theorem decodeOfEncodeIsTheInstruction : Obligations.DecodeOfEncodeIsTheInstruction := by
  intro m i rest hw
  have hp : takePrefixes (encode i ++ rest) = (i.form.prefixes.map .ignored, i.tailBytes ++ rest) := by
    rw [encode_eq, List.append_assoc, takePrefixes_map, takePrefixes_tailBytes, List.append_nil]
  have hl : (i.form.prefixes.map PrefixByte.ignored).length ≤ maxPrefixes := by
    rw [List.length_map]; exact ((i.wellFormed_iff m).mp hw).1
  rw [decode_of_takePrefixes hw hp hl, ignoredOnly_map]
  simp [i.ofFields_fields]

/-! ### What bytes that decode are -/

theorem Dir.opcode2_of_ofOpcode2 {b : Byte} {d : Dir} (h : Dir.ofOpcode2 b = some d) : b = d.opcode2 := by
  unfold Dir.ofOpcode2 at h
  split at h
  · obtain rfl := Option.some.inj h; exact BitVec.eq_of_toNat_eq ‹_›
  · obtain rfl := Option.some.inj h; exact BitVec.eq_of_toNat_eq ‹_›
  · exact nomatch h

/-- Bytes in which the decoder finds direction and ModRM are the three fixed bytes and what follows them (R70). -/
theorem takeOpcode_ok {bs rest : List Byte} {d : Dir} {modrm : Byte} (h : takeOpcode bs = .ok (d, modrm, rest)) :
    bs = 0x0F#8 :: d.opcode2 :: modrm :: rest := by
  unfold takeOpcode at h
  split at h
  · exact nomatch h
  · split at h
    · rename_i he
      split at h
      · exact nomatch h
      · split at h
        · exact nomatch h
        · rename_i hd
          split at h
          · exact nomatch h
          · obtain ⟨rfl, rfl, rfl⟩ : _ ∧ _ ∧ _ := by simpa using h
            rw [he, Dir.opcode2_of_ofOpcode2 hd]
    · exact nomatch h

/-- A REX byte taken off is one, in 64-bit mode (R70, R72). -/
theorem takeRex_spec (m : Mode) (bs : List Byte) :
    bs = (takeRex m bs).1.toList ++ (takeRex m bs).2 ∧
      ((takeRex m bs).1 = none ∨ m = .long64 ∧ ∃ b, (takeRex m bs).1 = some b ∧ isRex b = true) := by
  cases bs with
  | nil => exact ⟨rfl, .inl rfl⟩
  | cons b bs =>
    by_cases h : m = .long64 ∧ isRex b = true
    · rw [takeRex_of_isRex h]; exact ⟨rfl, .inr ⟨h.1, b, rfl, h.2⟩⟩
    · rw [takeRex_of_not h]; exact ⟨rfl, .inl rfl⟩

/-- The instruction the decoder builds from its parts. -/
def Instr.ofParts (ps : List PrefixByte) (rex : Option Byte) (d : Dir) (modrm : Byte) : Instr :=
  Instr.ofFields d (crNumber rex modrm)
    { prefixes := ignoredOnly ps, rex := rex.map RexBits.ofByte, mod := modrm.extractLsb' 6 2 } (gprNumber rex modrm)

/-- What the decoder found if it accepts: at most four ignored prefixes, and direction and ModRM behind them. -/
theorem decode_ok {m : Mode} {bs rest : List Byte} {i : Instr} (h : decode m bs = .ok (i, rest)) :
    (takePrefixes bs).1.length ≤ maxPrefixes ∧ (takePrefixes bs).1.contains .lock = false ∧
      (takePrefixes bs).1.contains .repeated = false ∧
      ∃ d modrm, (takeRex m (takePrefixes bs).2).2 = 0x0F#8 :: d.opcode2 :: modrm :: rest ∧
        i = Instr.ofParts (takePrefixes bs).1 (takeRex m (takePrefixes bs).2).1 d modrm := by
  unfold decode at h
  dsimp only at h
  split at h
  · rename_i hl
    split at h
    · exact nomatch h
    · rename_i d modrm rest' ho
      split at h
      · exact nomatch h
      · rename_i hlock
        split at h
        · exact nomatch h
        · rename_i hrep
          obtain ⟨rfl, rfl⟩ : _ ∧ _ := by simpa using h
          exact ⟨hl, by simpa using hlock, by simpa using hrep, d, modrm, takeOpcode_ok ho, rfl⟩
  · exact nomatch h

/-- The bytes behind the prefixes of an instruction built from its parts are those parts: no bit of REX or ModRM is lost. -/
theorem tailBytes_ofParts {ps : List PrefixByte} {rex : Option Byte} (d : Dir) (modrm : Byte)
    (h : ∀ b, rex = some b → isRex b = true) :
    (Instr.ofParts ps rex d modrm).tailBytes = rex.toList ++ [0x0F#8, d.opcode2, modrm] := by
  have hm : modrmByte (modrm.extractLsb' 6 2) (crNumber rex modrm) (gprNumber rex modrm) = modrm :=
    modrmByte_of_fields _ _ _ (joinNumber_extract _ _) (joinNumber_extract _ _)
  have hx : (Instr.ofParts ps rex d modrm).rexByte? = rex := by
    cases rex with
    | none => simp [Instr.rexByte?, Instr.ofParts]
    | some b =>
      simp only [Instr.rexByte?, Instr.ofParts, Instr.form_ofFields, Instr.crNum_ofFields, Instr.gpr_ofFields, Option.map_some,
        crNumber, gprNumber, joinNumber_getLsbD]
      exact congrArg some (rexByte_of_isRex b (h b rfl))
  rw [Instr.tailBytes, hx]
  simp [Instr.modrm, Instr.ofParts, hm]

/-- Without a REX byte both operand numbers are below 8 (R72). -/
theorem ofParts_numbers (ps : List PrefixByte) (rex : Option Byte) (d : Dir) (modrm : Byte) :
    ((Instr.ofParts ps rex d modrm).form.rex.isSome = true ∨ (Instr.ofParts ps rex d modrm).crNum < 8#4) ∧
      ((Instr.ofParts ps rex d modrm).form.rex.isSome = true ∨ (Instr.ofParts ps rex d modrm).gpr < 8#4) := by
  cases rex with
  | none => simpa [Instr.ofParts] using ⟨joinNumber_lt _, joinNumber_lt _⟩
  | some b => simp [Instr.ofParts]

/-- Settles O2: each part the decoder took is the part of the encoding it stands for. -/
theorem encodeOfDecodeIsTheBytes : Obligations.EncodeOfDecodeIsTheBytes := by
  intro m bs i rest h
  obtain ⟨hl, hlock, hrep, d, modrm, hop, rfl⟩ := decode_ok h
  obtain ⟨hbytes, hlen⟩ := takePrefixes_spec bs hlock hrep
  obtain ⟨hrex, hmode⟩ := takeRex_spec m (takePrefixes bs).2
  rw [hop] at hrex
  generalize (takePrefixes bs).1 = ps at *
  generalize (takeRex m (takePrefixes bs).2).1 = rex at *
  have hisRex : ∀ b, rex = some b → isRex b = true := by
    rintro b rfl
    obtain ⟨-, b', hb, hx⟩ := hmode.resolve_left nofun
    exact Option.some.inj hb ▸ hx
  have hform : (Instr.ofParts ps rex d modrm).form.prefixes = ignoredOnly ps := by simp [Instr.ofParts]
  constructor
  · refine (Instr.wellFormed_iff m _).mpr ⟨by rw [hform, hlen]; exact hl, ?_, ofParts_numbers ps rex d modrm⟩
    exact hmode.imp (fun hn => by simp [Instr.ofParts, hn]) (·.1)
  · rw [encode_eq, hform, tailBytes_ofParts d modrm hisRex]
    simpa [hrex] using hbytes

/-- Settles O6: what decodes is well formed, and outside 64-bit mode that leaves no REX byte. -/
theorem outsideLongModeNumbersAreBelowEight : Obligations.OutsideLongModeNumbersAreBelowEight := by
  intro m bs i rest hm h
  obtain ⟨-, hrex, hn, hr⟩ := (i.wellFormed_iff m).mp (encodeOfDecodeIsTheBytes m bs i rest h).1
  have hnone : i.form.rex = none := hrex.resolve_right hm
  exact ⟨hnone, hn.resolve_left (by simp [hnone]), hr.resolve_left (by simp [hnone])⟩

/-! ### What the decoder refuses for its prefixes, and the worked encodings -/

/-- One more byte of R75 among the ignored prefixes in front of an encoding that has none itself. -/
theorem takePrefixes_marked {b : Byte} {p : PrefixByte} (hb : PrefixByte.ofByte b = some p) (before after : List LegacyPrefix)
    {i : Instr} (hi : i.form.prefixes = []) (rest : List Byte) :
    takePrefixes (before.map LegacyPrefix.byte ++ b :: (after.map LegacyPrefix.byte ++ encode i ++ rest)) =
      (before.map .ignored ++ p :: after.map .ignored, i.tailBytes ++ rest) := by
  rw [encode_eq, hi, List.map_nil, List.nil_append, List.append_assoc, takePrefixes_map, takePrefixes_cons_of_some hb,
    takePrefixes_map, takePrefixes_tailBytes, List.append_nil]

/-- Settles O4: the byte is found among the prefixes, wherever it stands. -/
theorem lockAndRepeatPrefixesAreRefused : Obligations.LockAndRepeatPrefixesAreRefused := by
  intro m i before after rest hw hi hlen
  have refuses : ∀ b p, PrefixByte.ofByte b = some p →
      decode m (before.map LegacyPrefix.byte ++ b :: (after.map LegacyPrefix.byte ++ encode i ++ rest)) = _ := fun b p hb =>
    decode_of_takePrefixes hw (takePrefixes_marked hb before after hi rest)
      (by simp only [List.length_append, List.length_cons, List.length_map, maxPrefixes]; omega)
  refine ⟨(refuses _ .lock rfl).trans ?_, (refuses _ .repeated rfl).trans ?_, (refuses _ .repeated rfl).trans ?_⟩ <;> simp

/-- All legacy prefixes in front are taken off. -/
theorem length_le_takePrefixes (ps rest : List Byte) (h : ∀ b ∈ ps, (PrefixByte.ofByte b).isSome = true) :
    ps.length ≤ (takePrefixes (ps ++ rest)).1.length := by
  induction ps with
  | nil => exact Nat.zero_le _
  | cons b ps ih =>
    obtain ⟨hb, hps⟩ := List.forall_mem_cons.mp h
    obtain ⟨p, hp⟩ := Option.isSome_iff_exists.mp hb
    rw [List.cons_append, takePrefixes_cons_of_some hp]
    exact Nat.succ_le_succ (ih hps)

/-- Settles O5: the count of the legacy prefixes is the decoder's first test. -/
theorem moreThanFourPrefixesAreRefused : Obligations.MoreThanFourPrefixesAreRefused := by
  intro m ps rest hps hlen
  have isPrefix : ∀ b ∈ [0x66#8, 0x67#8, 0x26#8, 0x2E#8, 0x36#8, 0x3E#8, 0x64#8, 0x65#8, 0xF0#8, 0xF2#8, 0xF3#8],
      (PrefixByte.ofByte b).isSome = true := by simp [PrefixByte.ofByte]
  have := length_le_takePrefixes ps rest fun b hb => isPrefix b (hps b hb)
  exact if_neg (by unfold maxPrefixes; omega)

/-- Settles O3: the decoder run on each row; outside 64-bit mode it reads a row alike in every mode. -/
theorem workedEncodingsDecode : Obligations.WorkedEncodingsDecode := by
  refine ⟨fun m hm => ?_, rfl, rfl, rfl, rfl, rfl, rfl, rfl⟩
  cases m with
  | long64 => exact absurd rfl hm
  | _ => exact ⟨rfl, rfl, rfl, rfl⟩

end Sys2Proof
end

section
/-!
The step of 70_reset_and_hazards.md R158: what it does for each schedule, and what it fetches.
-/

namespace Sys2Proof.Machine

/-! ### What a step is -/

theorem step_of_env_nil {s : State} (h : s.env = []) : step s = runInstr s := by
  simp [step, h]

theorem step_of_env_instr {s : State} {es : List EnvStep} (h : s.env = .instr :: es) :
    step s = runInstr { s with env := es } := by
  simp [step, h]

theorem step_of_env_event {s : State} {e : Event} {es : List EnvStep} (h : s.env = .event e :: es) :
    step s = applyEvent e { s with env := es } := by
  simp [step, h]

/-- An instruction step runs the instruction at pc, in the state whose schedule has lost the entry that let it run. -/
theorem step_of_env_lets_instr {s : State} (h : s.env = [] ∨ ∃ es, s.env = .instr :: es) :
    ∃ es, step s = runInstr { s with env := es } := by
  rcases h with h | ⟨es, h⟩
  · exact ⟨[], by rw [step_of_env_nil h, ← h]⟩
  · exact ⟨es, step_of_env_instr h⟩

theorem runInstr_of_decode {s : State} {i : Instr} {rest : List Byte} (h : decode s.mode s.fetched.1 = .ok (i, rest)) :
    runInstr s = exec i s := by
  simp [runInstr, h]

theorem runInstr_of_decode_error {s : State} {e : DecodeError} (h : decode s.mode s.fetched.1 = .error e) :
    runInstr s = fetchStop e s.fetched.2 := by
  simp [runInstr, h]

/-- Settles O8: the schedule that lets an instruction run does not touch what is fetched. -/
theorem stepRunsTheDecodedInstruction : Obligations.StepRunsTheDecodedInstruction := by
  intro s i rest hd
  refine ⟨fun h => ?_, fun es h => ?_⟩
  · rw [step_of_env_nil h, runInstr_of_decode hd]
  · rw [step_of_env_instr h]
    exact runInstr_of_decode hd

/-- Settles O10: the equation of the step for a schedule headed by an event. -/
theorem stepTakesTheScheduledEvent : Obligations.StepTakesTheScheduledEvent :=
  fun _ _ _ h => step_of_env_event h

/-- An instruction step whose bytes do not decode stops as `fetchStop` says. -/
theorem step_of_decode_error {s : State} {e : DecodeError} (h : s.env = [] ∨ ∃ es, s.env = .instr :: es)
    (hd : decode s.mode s.fetched.1 = .error e) : step s = fetchStop e s.fetched.2 := by
  obtain ⟨es, hs⟩ := step_of_env_lets_instr h
  rw [hs]
  exact runInstr_of_decode_error hd

/-- Settles O11: the stop of each reason; bytes that run out stop by what ended the fetch. -/
theorem bytesThatDoNotDecodeStopTheStep : Obligations.BytesThatDoNotDecodeStopTheStep := by
  intro s h
  refine ⟨step_of_decode_error h, step_of_decode_error h, step_of_decode_error h, step_of_decode_error h, ?_, ?_⟩
  · intro hd hend
    rw [step_of_decode_error h hd, hend]; rfl
  · intro a hd hend
    rw [step_of_decode_error h hd, hend]; rfl

/-! ### Fetching what is stored -/

/-- Bytes stored at `a` below the limit are the first ones fetched, if no more than the fetch takes. -/
theorem fetchBytes_of_stored {m : List Host.Cell} {limit : Nat} (bs : List Byte) (n a : Nat) (hn : bs.length ≤ n)
    (ha : a + bs.length ≤ limit) (hm : ∀ k (h : k < bs.length), Memory.read1 m (a + k) = some bs[k]) :
    ∃ rest, (fetchBytes m limit n a).1 = bs ++ rest := by
  induction bs generalizing n a with
  | nil => exact ⟨_, rfl⟩
  | cons b bs ih =>
    rw [List.length_cons] at hn ha
    obtain ⟨n, rfl⟩ : ∃ k, n = k + 1 := ⟨n - 1, by omega⟩
    have hfirst : Memory.read1 m a = some b := hm 0 (Nat.succ_pos _)
    obtain ⟨rest, hrest⟩ := ih n (a + 1) (by omega) (by omega) fun k hk => by
      rw [Nat.add_right_comm]; exact hm (k + 1) (Nat.succ_lt_succ hk)
    refine ⟨rest, ?_⟩
    rw [fetchBytes, if_pos (by omega), hfirst]
    exact congrArg (b :: ·) hrest

/-- An instruction that has an encoding is no longer than the fetch (R77). -/
theorem encode_length_le {m : Mode} {i : Instr} (h : i.wellFormed m = true) : (encode i).length ≤ maxInstrLen := by
  have := ((i.wellFormed_iff m).mp h).1
  rw [Laws.encode_length, Form.len]
  unfold maxPrefixes at this
  unfold maxInstrLen
  split <;> omega

/-- Settles O9: the fetch begins with the encoding, which decodes to the instruction whatever follows it. -/
theorem stepRunsTheInstructionStoredAtPc : Obligations.StepRunsTheInstructionStoredAtPc := by
  intro s i henv hw hlimit hstored
  obtain ⟨rest, hfetch⟩ := fetchBytes_of_stored (encode i) maxInstrLen s.ip (encode_length_le hw) hlimit hstored
  have hd : decode s.mode s.fetched.1 = .ok (i, rest) := by
    rw [State.fetched, hfetch]
    exact decodeOfEncodeIsTheInstruction s.mode i rest hw
  exact (stepRunsTheDecodedInstruction s i rest hd).1 henv

end Sys2Proof.Machine
end

section
/-!
The moves of 40_mov_crn.md sections 2 and 3 when they complete, and what every completed MOV CRn leaves alone (R99).
-/

namespace Sys2Proof.Machine

/-! ### Every completed move -/

/-- What any completed instruction leaves alone, and how it moves pc and the status flags (R60, R99). -/
theorem exec_next_done {i : Instr} {s t : State} (h : exec i s = .next t) :
    InstrFrame s t ∧ Completed s t i.form.len := by
  obtain ⟨-, hfits, s', p, rfl, hs', hdraws⟩ := exec_next_shape h
  generalize s'.cr = cr, s'.gpr = gpr, s'.draws = draws at hs' hdraws
  subst hs'
  exact ⟨⟨rfl, rfl, rfl, rfl, rfl, rfl, rfl, rfl, rfl, fun _ => rfl⟩,
    ⟨s.nextPc_eq_advancedPc _ hfits, draws, hdraws, rfl, Nat.le_refl _⟩⟩

/-- Settles O30: the room is checked before pc moves, and the length is that of the encoding. -/
theorem completionAdvancesPcByTheLength : Obligations.CompletionAdvancesPcByTheLength := by
  intro i s t h
  obtain ⟨-, hfits, -⟩ := exec_next_shape h
  exact ⟨hfits, (Laws.encode_length i).symm, (exec_next_done h).2.pc⟩

/-- With room for `pc + len` a completion behind the privilege check goes through. -/
theorem checkPrivilege_of_mayRun {s s' : State} {len : Nat} {p : Option (Mode × Fin 4)} {o : Outcome} (h : s.mayRun len)
    (ho : o = s'.complete len p) (hm : s'.mode = s.mode) (hp : s'.pc = s.pc) :
    s.checkPrivilege o = .next (s'.completed len p) := by
  obtain ⟨hpriv, hfits⟩ := h
  rw [s.checkPrivilege_of _ hpriv, ho, s'.complete_of_fits len p ((State.pcFits_congr hm hp len).trans hfits)]

/-! ### Moves from a control register -/

@[simp] theorem State.readCr_cr (s : State) (v : Word) (r : Gpr) : (s.readCr v r).cr = s.cr := by rw [s.readCr_eq]; rfl
@[simp] theorem State.readCr_mode (s : State) (v : Word) (r : Gpr) : (s.readCr v r).mode = s.mode := by rw [s.readCr_eq]; rfl
@[simp] theorem State.readCr_cpl (s : State) (v : Word) (r : Gpr) : (s.readCr v r).cpl = s.cpl := by rw [s.readCr_eq]; rfl
@[simp] theorem State.readCr_pc (s : State) (v : Word) (r : Gpr) : (s.readCr v r).pc = s.pc := by rw [s.readCr_eq]; rfl
@[simp] theorem State.readCr_modeInput (s : State) (v : Word) (r : Gpr) : (s.readCr v r).modeInput = s.modeInput := by
  rw [s.readCr_eq]; rfl

theorem State.readCr_getGpr_self (s : State) (v : Word) (r : Gpr) :
    (s.readCr v r).getGpr r = if s.mode = .long64 then v else join32 (Config.draw32 s.draws) (lower32 v) := by
  rw [s.readCr_eq]
  exact State.getGpr_setGpr_self s r _

theorem State.readCr_getGpr_ne (s : State) (v : Word) {r q : Gpr} (h : q ≠ r) : (s.readCr v r).getGpr q = s.getGpr q := by
  rw [s.readCr_eq]
  exact State.getGpr_setGpr_ne s r q _ h

/-- In 64-bit mode a read is a plain write of the register (R86). -/
theorem State.readCr_long {s : State} (h : s.mode = .long64) (v : Word) (r : Gpr) : s.readCr v r = s.setGpr r v := if_pos h

/-- An instruction that completes with the value `v` read into `x[r]` is a finished read in the sense of R86 and R99. -/
theorem readDone_of_exec {i : Instr} {s : State} {v : Word} {r : Gpr}
    (h : exec i s = .next ((s.readCr v r).completed i.form.len none)) :
    ReadDone s ((s.readCr v r).completed i.form.len none) i.form.len r v where
  frame := (exec_next_done h).1
  completed := (exec_next_done h).2
  modes := ⟨s.readCr_mode v r, s.readCr_cpl v r, s.readCr_modeInput v r⟩
  cr := s.readCr_cr v r
  low := by
    rw [State.completed_getGpr, s.readCr_getGpr_self]
    split
    · rfl
    · exact lower32_join32 _ _
  whole hm := by rw [State.completed_getGpr, s.readCr_getGpr_self, if_pos hm]
  freeHalf hm := by rw [State.completed_getGpr, s.readCr_getGpr_self, if_neg hm, upper32_join32]
  others q hq := s.readCr_getGpr_ne v hq

/-- A read that may run completes (R86, R88 to R91). -/
theorem read_completes {i : Instr} {s : State} {v : Word} {r : Gpr}
    (hread : exec i s = s.checkPrivilege ((s.readCr v r).complete i.form.len none)) (h : s.mayRun i.form.len) :
    ∃ t, exec i s = .next t ∧ ReadDone s t i.form.len r v := by
  have hx := hread.trans (checkPrivilege_of_mayRun h rfl (s.readCr_mode v r) (s.readCr_pc v r))
  exact ⟨_, hx, readDone_of_exec hx⟩

/-- Settles O12: each of the four reads is the same read of another register. -/
theorem readsOfCr0Cr2Cr3Cr4Complete : Obligations.ReadsOfCr0Cr2Cr3Cr4Complete := by
  intro s f r h
  exact ⟨read_completes (i := .movFromCr0 f r) rfl h, read_completes (i := .movFromCr2 f r) rfl h,
    read_completes (i := .movFromCr3 f r) rfl h, read_completes (i := .movFromCr4 f r) rfl h⟩

/-- Settles O13: in 64-bit mode the read of CR8 is a read like the others. -/
theorem readOfCr8Completes : Obligations.ReadOfCr8Completes := by
  intro s f r hm h
  exact read_completes (i := .movFromCr8 f r) (by rw [State.readCr_long hm]; rfl) h

/-- Settles O14: the value read is the register's, of which the invariant speaks; ET lies in the half read in every mode. -/
theorem readsShowHardwiredAndReservedBits : Obligations.ReadsShowHardwiredAndReservedBits := by
  intro s f r hinv h
  obtain ⟨⟨t, ht, hread⟩, -, -, ⟨u, hu, hread4⟩⟩ := readsOfCr0Cr2Cr3Cr4Complete s f r h
  refine ⟨⟨t, ht, fun het => ?_, fun hm => ?_⟩, ⟨u, hu, fun hm => ?_⟩⟩
  · rw [getLsbD_eq_lower32 _ 4 (by omega), hread.low, ← getLsbD_eq_lower32 _ 4 (by omega)]
    exact hinv.et het
  · rw [hread.whole hm]; exact hinv.cr0Upper
  · rw [hread4.whole hm]; exact hinv.cr4Upper

/-! ### Moves to a control register that complete -/

/-- An instruction that completes and changes no general register is a finished load in the sense of R99. -/
theorem loadDone_of_exec {i : Instr} {s t : State} {cr : CtrlRegs} (h : exec i s = .next t) (hcr : t.cr = cr)
    (hgpr : t.gpr = s.gpr) : LoadDone s t i.form.len cr where
  frame := (exec_next_done h).1
  completed := (exec_next_done h).2
  cr := hcr
  gpr := State.getGpr_congr hgpr

/-- The rules of R92 from (c) on, for a value that does not raise, with the flags written as the bits of R14. -/
theorem State.loadCr0_of_not_raises {s : State} {v : Word} (len : Nat) (hu : upper32 v = 0#32)
    (hpg : ¬ (v.getLsbD 31 = true ∧ v.getLsbD 0 = false)) :
    s.loadCr0 v len =
      if v.getLsbD 29 = true ∧ v.getLsbD 30 = false then .refused .cr0NwWithoutCd
      else if s.mode = .long64 ∧ s.cr.cr0.getLsbD 31 = true ∧ v.getLsbD 31 = false then .refused .cr0PgClearedIn64BitMode
      else if s.cr.cr0.getLsbD 31 = false ∧ v.getLsbD 31 = true ∧ s.activationOk = false then
        .refused .cr0PagingEnableConditions
      else if (v ^^^ s.cr.cr0) &&& cr0Reserved s.cfg ≠ 0#64 then .refused .cr0ReservedBitsChanged
      else (s.setCr0 (cr0Stored s.cfg.family v)).complete len (s.modeAtLoad (cr0Stored s.cfg.family v)) :=
  (if_neg (not_not.mpr hu)).trans (if_neg hpg)

/-- R94 on the value presented. -/
theorem State.loadCr3_eq (s : State) (r : Gpr) (len : Nat) :
    s.loadCr3 r len =
      if (s.srcValue s.upper3 r).extractLsb' 40 12 ≠ 0#12 then .refused .cr3Reserved51To40Nonzero
      else if (s.srcValue s.upper3 r ^^^ s.cr.cr3) &&& cr3RsvdOther s.cfg ≠ 0#64 then .refused .cr3ReservedBitsChanged
      else ((s.setCr3 (s.srcValue s.upper3 r)).countDraws 1).complete len none := by
  simp only [State.loadCr3, s.cr3HasReserved51To40_iff, s.cr3ChangesReserved_iff]

/-- A write that keeps PE and PG takes no MODE and CPL with it (R92). -/
theorem State.modeAtLoad_of_same {s : State} {v : Word} (hpe : cr0Pe v = cr0Pe s.cr.cr0) (hpg : cr0Pg v = cr0Pg s.cr.cr0) :
    s.modeAtLoad v = none := by
  simp [State.modeAtLoad, State.changesPeOrPg, hpe, hpg]

/-- Storing a value in CR0 changes no bit of it but ET (R18). -/
theorem cr0Stored_getLsbD {i : Nat} (h : i ≠ 4) (f : Family) (v : Word) : (cr0Stored f v).getLsbD i = v.getLsbD i := by
  unfold cr0Stored
  split
  · simp [h]
  · rfl

@[simp] theorem cr0Pe_cr0Stored (f : Family) (v : Word) : cr0Pe (cr0Stored f v) = cr0Pe v := cr0Stored_getLsbD (by decide) f v
@[simp] theorem cr0Pg_cr0Stored (f : Family) (v : Word) : cr0Pg (cr0Stored f v) = cr0Pg v := cr0Stored_getLsbD (by decide) f v

/-- Settles O15: the value passes the six checks one after the other. -/
theorem movToCr0Commits : Obligations.MovToCr0Commits := by
  rintro s f r v rfl hrun hupper hpgpe hnw hlong hactivation hreserved
  have hload : s.loadCr0 (s.srcValue 0#32 r) f.len = _ :=
    (State.loadCr0_of_not_raises f.len hupper hpgpe).trans <| (if_neg hnw).trans <| (if_neg hlong).trans <|
      (if_neg hactivation).trans <| if_neg (not_not.mpr hreserved)
  have hx : exec (.movToCr0 f r) s = .next _ := checkPrivilege_of_mayRun hrun hload rfl rfl
  refine ⟨_, hx, loadDone_of_exec hx rfl rfl, fun hpe hpg => ?_⟩
  rw [State.modeAtLoad_of_same ((cr0Pe_cr0Stored _ _).trans hpe) ((cr0Pg_cr0Stored _ _).trans hpg)]
  exact ⟨rfl, rfl, rfl⟩

/-- Settles O18: no value is checked. -/
theorem movToCr2Completes : Obligations.MovToCr2Completes := by
  intro s f r hrun
  have hx : exec (.movToCr2 f r) s = .next _ :=
    checkPrivilege_of_mayRun (s' := (s.setCr2 (s.srcValue s.upper2 r)).countDraws 1) hrun rfl rfl rfl
  exact ⟨_, hx, loadDone_of_exec hx rfl rfl, ⟨rfl, rfl, rfl⟩⟩

/-- Settles O19. -/
theorem movToCr3Completes : Obligations.MovToCr3Completes := by
  rintro s f r v rfl hrun hbits hreserved
  have hload : s.loadCr3 r f.len = _ :=
    (s.loadCr3_eq r f.len).trans <| (if_neg (not_not.mpr hbits)).trans <| if_neg (not_not.mpr hreserved)
  have hx : exec (.movToCr3 f r) s = .next _ := checkPrivilege_of_mayRun hrun hload rfl rfl
  exact ⟨_, hx, loadDone_of_exec hx rfl rfl, ⟨rfl, rfl, rfl⟩⟩

theorem isIa32e_iff (m : Mode) : isIa32e m = true ↔ m = .compat ∨ m = .long64 := by
  simp [isIa32e]

/-- Settles O21. -/
theorem movToCr4Completes : Obligations.MovToCr4Completes := by
  rintro s f r v rfl hrun hupper hreserved hpae
  rw [← isIa32e_iff] at hpae
  have hload : s.loadCr4 (s.srcValue 0#32 r) f.len = _ :=
    (if_neg (not_not.mpr hupper)).trans <| (if_neg (not_not.mpr hreserved)).trans <| if_neg hpae
  have hx : exec (.movToCr4 f r) s = .next _ := checkPrivilege_of_mayRun hrun hload rfl rfl
  exact ⟨_, hx, loadDone_of_exec hx rfl rfl, ⟨rfl, rfl, rfl⟩⟩

/-- Settles O23: the one check of R96, passed or not. -/
theorem movToCr8CompletesOrRefuses : Obligations.MovToCr8CompletesOrRefuses := by
  intro s f r hm hrun
  refine ⟨fun hbits => ?_, fun hbits => ?_⟩
  · have hload : s.loadCr8 (s.getGpr r) f.len = _ := if_neg (not_not.mpr hbits)
    have hx : exec (.movToCr8 f r) s = .next _ := checkPrivilege_of_mayRun hrun hload rfl rfl
    exact ⟨_, hx, loadDone_of_exec hx rfl rfl, ⟨rfl, rfl, rfl⟩⟩
  · exact (s.checkPrivilege_of _ hrun.1).trans (if_pos hbits)

/-! ### Moves to a control register that stop -/

/-- What raises #GP(0) behind the privilege check raises it in front of it too (R85). -/
theorem State.checkPrivilege_raiseGp (s : State) : s.checkPrivilege (raiseGp 0) = raiseGp 0 := by
  rcases s.checkPrivilege_cases (raiseGp 0) with ⟨-, h⟩ | ⟨-, h⟩ <;> exact h

/-- Settles O16: both causes come before every refusal. -/
theorem movToCr0RaisesGp : Obligations.MovToCr0RaisesGp := by
  rintro s f r v rfl h
  have hraise : s.loadCr0 (s.srcValue 0#32 r) f.len = raiseGp 0 := by
    by_cases hu : upper32 (s.srcValue 0#32 r) = 0#32
    · exact (if_neg (not_not.mpr hu)).trans (if_pos (h.resolve_left (not_not.mpr hu)))
    · exact if_pos hu
  change s.checkPrivilege (s.loadCr0 (s.srcValue 0#32 r) f.len) = _
  rw [hraise, s.checkPrivilege_raiseGp]; rfl

/-- Settles O17: behind the raises, R92 and the statement go through the same conditions in the same order. -/
theorem movToCr0RefusesInOrder : Obligations.MovToCr0RefusesInOrder := by
  rintro s f r v rfl hpriv hupper hpgpe
  have hx : exec (.movToCr0 f r) s = _ :=
    (s.checkPrivilege_of _ hpriv).trans (State.loadCr0_of_not_raises f.len hupper hpgpe)
  split
  · rename_i hnw
    rw [hx, if_pos hnw]
  · rename_i hnw
    rw [if_neg hnw] at hx
    split
    · rename_i hlong
      rw [hx, if_pos hlong]
    · rename_i hlong
      rw [if_neg hlong] at hx
      split
      · rename_i hactivation
        rw [hx, if_pos hactivation]
      · rename_i hactivation
        intro hreserved
        rw [hx, if_neg hactivation, if_pos hreserved]

/-- Settles O20. -/
theorem movToCr3RefusesInOrder : Obligations.MovToCr3RefusesInOrder := by
  rintro s f r v rfl hpriv
  have hx : exec (.movToCr3 f r) s = s.loadCr3 r f.len := s.checkPrivilege_of _ hpriv
  rw [hx, s.loadCr3_eq]
  exact ⟨fun hbits => if_pos hbits, fun hbits hreserved => (if_neg (not_not.mpr hbits)).trans (if_pos hreserved)⟩

/-- Settles O22: the raise needs no privilege check to be passed, the refusals do. -/
theorem movToCr4RaisesAndRefusesInOrder : Obligations.MovToCr4RaisesAndRefusesInOrder := by
  rintro s f r v rfl
  have hx : exec (.movToCr4 f r) s = s.checkPrivilege (s.loadCr4 (s.srcValue 0#32 r) f.len) := rfl
  rw [hx]
  refine ⟨fun hupper => ?_, fun hpriv hupper hreserved => ?_, fun hpriv hupper hreserved hmode hpae => ?_⟩
  · rw [State.loadCr4, if_pos hupper, s.checkPrivilege_raiseGp]; rfl
  · rw [s.checkPrivilege_of _ hpriv, State.loadCr4, if_neg (not_not.mpr hupper), if_pos hreserved]
  · rw [s.checkPrivilege_of _ hpriv, State.loadCr4, if_neg (not_not.mpr hupper), if_neg (not_not.mpr hreserved),
      if_pos ⟨(isIa32e_iff _).mpr hmode, hpae⟩]

end Sys2Proof.Machine
end

section
/-!
The width of a write (40_mov_crn.md R87), and what a write and a read of one register give together (R101, R102).
-/

namespace Sys2Proof.Machine

/-! ### The value a write presents -/

/-- Under the upper half zero: the register, or its low half under zeros (R87). -/
theorem State.srcValue_zero (s : State) (r : Gpr) :
    s.srcValue 0#32 r = if s.mode = .long64 then s.getGpr r else (lower32 (s.getGpr r)).setWidth 64 := by
  rw [← join32_zero]; rfl

theorem State.upper2_of_zero {s : State} (h : s.cfg.upper32 = .zero) : s.upper2 = 0#32 := by
  simp [State.upper2, h]

theorem State.upper3_of_zero {s : State} (h : s.cfg.upper32 = .zero) : s.upper3 = 0#32 := by
  simp [State.upper3, h]

/-- Outside 64-bit mode the upper half presented is `Upper(n)`. -/
theorem State.upper32_srcValue {s : State} (h : s.mode ≠ .long64) (u : BitVec 32) (r : Gpr) :
    upper32 (s.srcValue u r) = u := by
  rw [s.srcValue_short u r h, upper32_join32]

/-- Up to ET what is stored in CR0 is the value written (R18). -/
theorem cr0Stored_or_et (f : Family) (v : Word) : cr0Stored f v ||| 0x10#64 = v ||| 0x10#64 := by
  unfold cr0Stored
  split
  · rw [setBit, BitVec.or_assoc]; rfl
  · rfl

theorem execMovToCr0_cr0 {s t : State} {f : Form} {r : Gpr} (h : exec (.movToCr0 f r) s = .next t) :
    t.cr.cr0 = cr0Stored s.cfg.family (s.srcValue 0#32 r) := by
  obtain ⟨-, -, -, -, -, -, -, rfl⟩ := State.loadCr0_next (execMovToCr0_next h).2
  rfl

theorem execMovToCr2_cr2 {s t : State} {f : Form} {r : Gpr} (h : exec (.movToCr2 f r) s = .next t) :
    ModeKept s t ∧ t.cr.cr2 = s.srcValue s.upper2 r := by
  obtain ⟨-, -, rfl⟩ := execMovToCr2_next h
  exact ⟨⟨rfl, rfl, rfl⟩, rfl⟩

theorem execMovToCr3_cr3 {s t : State} {f : Form} {r : Gpr} (h : exec (.movToCr3 f r) s = .next t) :
    ModeKept s t ∧ t.cr.cr3 = s.srcValue s.upper3 r := by
  obtain ⟨-, -, -, rfl⟩ := State.loadCr3_next (execMovToCr3_next h).2
  exact ⟨⟨rfl, rfl, rfl⟩, rfl⟩

theorem execMovToCr4_cr4 {s t : State} {f : Form} {r : Gpr} (h : exec (.movToCr4 f r) s = .next t) :
    ModeKept s t ∧ t.cr.cr4 = s.srcValue 0#32 r := by
  obtain ⟨-, -, -, -, rfl⟩ := State.loadCr4_next (execMovToCr4_next h).2
  exact ⟨⟨rfl, rfl, rfl⟩, rfl⟩

theorem execMovToCr8_cr8 {s t : State} {f : Form} {r : Gpr} (h : exec (.movToCr8 f r) s = .next t) :
    ModeKept s t ∧ t.cr.cr8 = s.getGpr r := by
  obtain ⟨-, -, rfl⟩ := State.loadCr8_next (execMovToCr8_next h).2
  exact ⟨⟨rfl, rfl, rfl⟩, rfl⟩

/-- Settles O24: each register holds the value presented, whose halves R87 gives. -/
theorem widthOfAWriteFollowsTheMode : Obligations.WidthOfAWriteFollowsTheMode := by
  intro s t f r
  refine ⟨fun h => ?_, fun h => ?_, fun h => ?_, fun h => ?_⟩
  · rw [execMovToCr0_cr0 h, cr0Stored_or_et, s.srcValue_zero]
  · rw [(execMovToCr4_cr4 h).2, s.srcValue_zero]
  · rw [(execMovToCr2_cr2 h).2]
    exact ⟨s.srcValue_long _ r, s.lower32_srcValue _ r,
      fun hm hz => (State.upper32_srcValue hm _ r).trans (State.upper2_of_zero hz)⟩
  · rw [(execMovToCr3_cr3 h).2]
    refine ⟨s.srcValue_long _ r, s.lower32_srcValue _ r, fun hm => ?_,
      fun hm hz => (State.upper32_srcValue hm _ r).trans (State.upper3_of_zero hz)⟩
    rw [← s.srcTop3_eq, State.srcTop3, if_neg hm]

/-! ### A write followed by a read -/

theorem lower32_or (v w : Word) : lower32 (v ||| w) = lower32 v ||| lower32 w := by
  apply BitVec.eq_of_getLsbD_eq; intro i hi
  simp only [getLsbD_lower32, BitVec.getLsbD_or, Bool.and_or_distrib_left]

/-- A read that finds the value `v` presented by an earlier write of `x[r]` gives back what was written, in the width in which it
was (R102). -/
theorem ReadDone.gives_written {s t u : State} {len : Nat} {q r : Gpr} {v : Word} {w : BitVec 32}
    (hread : ReadDone t u len q v) (hv : v = s.srcValue w r) (hmode : t.mode = s.mode) :
    (s.mode = .long64 → u.getGpr q = s.getGpr r) ∧ lower32 (u.getGpr q) = lower32 (s.getGpr r) := by
  subst hv
  exact ⟨fun hm => by rw [hread.whole (hmode.trans hm), s.srcValue_long _ r hm],
    by rw [hread.low, s.lower32_srcValue]⟩

/-- MODE and CPL kept, what runs before runs after, given the room. -/
theorem ModeKept.mayRun {s t : State} {len : Nat} (h : ModeKept s t) (hpriv : s.mode = .real ∨ s.cpl = 0)
    (hfits : t.pcFits len = true) : t.mayRun len :=
  ⟨by rwa [h.mode, h.cpl], hfits⟩

/-- Settles O25: the write leaves the value presented, and the read after it reads that. -/
theorem writeThenReadReturnsTheValueWritten : Obligations.WriteThenReadReturnsTheValueWritten := by
  intro s t f g r q hpriv hfits
  refine ⟨fun het h hpriv' => ?_, fun h => ?_, fun h => ?_, fun h => ?_, fun hm h => ?_⟩
  · obtain ⟨⟨u, hu, hread⟩, -⟩ := readsOfCr0Cr2Cr3Cr4Complete t g q ⟨hpriv', hfits⟩
    have hv : t.cr.cr0 = s.srcValue 0#32 r ||| 0x10#64 := by
      rw [execMovToCr0_cr0 h, cr0Stored, if_pos het]; rfl
    refine ⟨u, hu, fun hm hm' => ?_, ?_⟩
    · rw [hread.whole hm', hv, s.srcValue_long _ r hm]
    · rw [hread.low, hv, lower32_or, s.lower32_srcValue]; rfl
  · obtain ⟨hkept, hv⟩ := execMovToCr2_cr2 h
    obtain ⟨-, ⟨u, hu, hread⟩, -⟩ := readsOfCr0Cr2Cr3Cr4Complete t g q (hkept.mayRun hpriv hfits)
    exact ⟨u, hu, hread.gives_written hv hkept.mode⟩
  · obtain ⟨hkept, hv⟩ := execMovToCr3_cr3 h
    obtain ⟨-, -, ⟨u, hu, hread⟩, -⟩ := readsOfCr0Cr2Cr3Cr4Complete t g q (hkept.mayRun hpriv hfits)
    exact ⟨u, hu, hread.gives_written hv hkept.mode⟩
  · obtain ⟨hkept, hv⟩ := execMovToCr4_cr4 h
    obtain ⟨-, -, -, ⟨u, hu, hread⟩⟩ := readsOfCr0Cr2Cr3Cr4Complete t g q (hkept.mayRun hpriv hfits)
    exact ⟨u, hu, hread.gives_written hv hkept.mode⟩
  · obtain ⟨hkept, hv⟩ := execMovToCr8_cr8 h
    have hm' : t.mode = .long64 := hkept.mode.trans hm
    obtain ⟨u, hu, hread⟩ := readOfCr8Completes t g q hm' (hkept.mayRun hpriv hfits)
    exact ⟨u, hu, by rw [hread.whole hm', hv]⟩

/-! ### A read followed by a write of the value read -/

/-- What holds after a completed read in 64-bit mode: a write of the value read presents just that value, and may run. -/
theorem ReadDone.ready_to_write_back {i : Instr} {s t : State} {r : Gpr} {v : Word} {len : Nat}
    (hread : ReadDone s t i.form.len r v) (h : exec i s = .next t) (hm : s.mode = .long64) (hfits : t.pcFits len = true) :
    t.mayRun len ∧ t.mode = .long64 ∧ v = t.getGpr r ∧ (∀ u, v = t.srcValue u r) ∧ t.cr = s.cr ∧ t.cfg = s.cfg :=
  have hm' : t.mode = .long64 := hread.modes.mode.trans hm
  have hv : v = t.getGpr r := (hread.whole hm).symm
  ⟨hread.modes.mayRun (exec_next_shape h).1 hfits, hm', hv, fun u => hv.trans (t.srcValue_long u r hm').symm, hread.cr,
    hread.frame.cfg⟩

/-- Setting ET changes nothing where it is set. -/
theorem or_et_of_cr0Et {v : Word} (h : cr0Et v = true) : v ||| 0x10#64 = v := by
  change setBit v 4 = v
  apply BitVec.eq_of_getLsbD_eq; intro i hi
  rw [setBit_getLsbD]
  by_cases h4 : i = 4
  · subst h4; rw [show v.getLsbD 4 = true from h]; rfl
  · simp [h4]

/-- A value never differs from itself in a reserved bit. -/
theorem self_change_eq_zero (v mask : Word) : (v ^^^ v) &&& mask = 0#64 := by
  rw [BitVec.xor_self, BitVec.zero_and]

/-- Settles O26: the invariant gives the checks that the value itself must pass, and a register's own value changes no reserved
bit. -/
theorem writingBackTheValueReadChangesNothing : Obligations.WritingBackTheValueReadChangesNothing := by
  intro s t f g r hinv hm hfits
  refine ⟨fun hnw h => ?_, fun h => ?_, fun h => ?_, fun h => ?_, fun h => ?_⟩
  · obtain ⟨-, -, rfl⟩ := execMovFromCr0_next h
    obtain ⟨hrun, -, -, hv, hcr, hcfg⟩ := (readDone_of_exec h).ready_to_write_back h hm hfits
    obtain ⟨u, hu, hload, -⟩ := movToCr0Commits _ g r s.cr.cr0 (hv _) hrun hinv.cr0Upper
      (fun ⟨hpg, hpe⟩ => Bool.eq_false_iff.mp hpe (hinv.pgPe hpg)) hnw
      (by rw [hcr]; exact fun ⟨_, hset, hclear⟩ => Bool.eq_false_iff.mp hclear hset)
      (by rw [hcr]; exact fun ⟨hclear, hset, _⟩ => Bool.eq_false_iff.mp hclear hset)
      (by rw [hcr]; exact self_change_eq_zero _ _)
    refine ⟨u, hu, ?_⟩
    rw [hload.cr, hcr, hcfg]
    split
    · rename_i het; rw [or_et_of_cr0Et (hinv.et het)]
    · rfl
  · obtain ⟨-, -, rfl⟩ := execMovFromCr2_next h
    obtain ⟨hrun, hm', hv, -, hcr, -⟩ := (readDone_of_exec h).ready_to_write_back h hm hfits
    obtain ⟨u, hu, hwrite⟩ := movToCr2Completes _ g r hrun
    exact ⟨u, hu, by rw [hwrite.cr, if_pos hm', ← hv, hcr]⟩
  · obtain ⟨-, -, rfl⟩ := execMovFromCr3_next h
    obtain ⟨hrun, -, -, hv, hcr, -⟩ := (readDone_of_exec h).ready_to_write_back h hm hfits
    obtain ⟨u, hu, hwrite⟩ := movToCr3Completes _ g r s.cr.cr3 (hv _) hrun hinv.cr3Reserved
      (by rw [hcr]; exact self_change_eq_zero _ _)
    exact ⟨u, hu, by rw [hwrite.cr, hcr]⟩
  · obtain ⟨-, -, rfl⟩ := execMovFromCr4_next h
    obtain ⟨hrun, -, -, hv, hcr, -⟩ := (readDone_of_exec h).ready_to_write_back h hm hfits
    obtain ⟨u, hu, hwrite⟩ := movToCr4Completes _ g r s.cr.cr4 (hv _) hrun hinv.cr4Upper
      (by rw [hcr]; exact self_change_eq_zero _ _) (by rw [hcr]; exact fun hpae => hpae.2 rfl)
    exact ⟨u, hu, by rw [hwrite.cr, hcr]⟩
  · obtain ⟨-, -, rfl⟩ := execMovFromCr8_next h
    rw [← State.readCr_long hm] at h hfits ⊢
    obtain ⟨hrun, hm', hv, -, hcr, hcfg⟩ := (readDone_of_exec h).ready_to_write_back h hm hfits
    obtain ⟨u, hu, hwrite⟩ := (movToCr8CompletesOrRefuses _ g r hm' hrun).1 (by rw [← hv, hcfg]; exact hinv.cr8Reserved)
    exact ⟨u, hu, by rw [hwrite.cr, ← hv, hcr]⟩

end Sys2Proof.Machine
end

section
/-!
The stops common to the instructions (40_mov_crn.md R85, 60_exceptions.md R121): privilege violations, the causes of #GP(0), and
what the ignored bits of an encoding can change (R73, R75, R76).
-/

namespace Sys2Proof.Machine

/-! ### Privilege -/

/-- Settles O28: every move of an existing register stands behind the privilege check. -/
theorem privilegeViolationRaisesGp : Obligations.PrivilegeViolationRaisesGp := by
  intro i s hreg hm hc
  cases i with
  | movFromCr0 | movFromCr2 | movFromCr3 | movFromCr4 | movFromCr8 => exact s.checkPrivilege_of_not _ hm hc
  | movToCr0 | movToCr2 | movToCr3 | movToCr4 | movToCr8 => exact s.checkPrivilege_of_not _ hm hc
  | _ f r => exact nomatch hreg

/-- What is refused for its number is refused whatever the privilege, so at CPL 1 to 3 outside real mode an instruction stops for a
reason that is a matter of its number alone. -/
theorem exec_unprivileged (i : Instr) :
    (∃ e, ∀ s : State, s.mode ≠ .real → s.cpl ≠ 0 → exec i s = .fault e) ∨
      (∃ e, ∀ s : State, s.mode ≠ .real → s.cpl ≠ 0 → exec i s = .refused e) := by
  cases hreg : hasRegister i.crNum with
  | true => exact .inl ⟨_, fun s => privilegeViolationRaisesGp i s hreg⟩
  | false => exact .inr ⟨_, fun s _ _ => exec_of_not_hasRegister i s hreg⟩

/-- Bytes that do not decode stop the step (R158). -/
theorem fetchStop_stops (e : DecodeError) (why : FetchEnd) :
    (∃ r, fetchStop e why = .fault r) ∨ (∃ r, fetchStop e why = .refused r) := by
  cases e with
  | truncated =>
    cases why with
    | unwritten a => exact .inl ⟨_, rfl⟩
    | full | top => exact .inr ⟨_, rfl⟩
  | _ => exact .inr ⟨_, rfl⟩

/-- Settles O47: the control registers take no part in fetch and decoding, nor in the stop that follows them. -/
theorem unprivilegedStepRevealsNothing : Obligations.UnprivilegedStepRevealsNothing := by
  intro s hm hc henv
  have hstep : ∃ es, ∀ c : CtrlRegs, step { s with cr := c } = runInstr { s with cr := c, env := es } := by
    rcases henv with h | ⟨es, h⟩
    · exact ⟨s.env, fun c => step_of_env_nil h⟩
    · exact ⟨es, fun c => step_of_env_instr h⟩
  obtain ⟨es, hstep⟩ := hstep
  simp only [hstep]
  cases hd : decode s.mode s.fetched.1 with
  | error e =>
    have hstop : ∀ c, runInstr { s with cr := c, env := es } = fetchStop e s.fetched.2 := fun c => runInstr_of_decode_error hd
    simp only [hstop]
    exact (fetchStop_stops e s.fetched.2).imp (fun ⟨r, h⟩ => ⟨r, fun _ => h⟩) (fun ⟨r, h⟩ => ⟨r, fun _ => h⟩)
  | ok p =>
    have hrun : ∀ c, runInstr { s with cr := c, env := es } = exec p.1 { s with cr := c, env := es } :=
      fun c => runInstr_of_decode (rest := p.2) hd
    simp only [hrun]
    exact (exec_unprivileged p.1).imp (fun ⟨r, h⟩ => ⟨r, fun _ => h _ hm hc⟩) (fun ⟨r, h⟩ => ⟨r, fun _ => h _ hm hc⟩)

/-! ### The causes of #GP(0) -/

/-- A fault behind the privilege check is that of the check or that of the rest. -/
theorem State.checkPrivilege_fault {s : State} {o : Outcome} {e : Fault} (h : s.checkPrivilege o = .fault e) :
    (e = .generalProtection 0 ∧ s.mode ≠ .real ∧ s.cpl ≠ 0) ∨ o = .fault e := by
  rcases s.checkPrivilege_cases o with ⟨-, ho⟩ | ⟨⟨hm, hc⟩, ho⟩
  · exact .inr (ho ▸ h)
  · exact .inl ⟨Host.Outcome.fault.inj (h.symm.trans ho), hm, hc⟩

/-- A load of CR0 faults for one of the two reasons R92 (a) and (b). -/
theorem State.loadCr0_fault {s : State} {v : Word} {len : Nat} {e : Fault} (h : s.loadCr0 v len = .fault e) :
    e = .generalProtection 0 ∧ (upper32 v ≠ 0#32 ∨ (v.getLsbD 31 = true ∧ v.getLsbD 0 = false)) := by
  by_cases hraise : upper32 v ≠ 0#32 ∨ (v.getLsbD 31 = true ∧ v.getLsbD 0 = false)
  · refine ⟨?_, hraise⟩
    unfold State.loadCr0 at h
    split at h
    · exact (Host.Outcome.fault.inj h).symm
    · rename_i hu
      exact (Host.Outcome.fault.inj (h.symm.trans (if_pos (hraise.resolve_left hu))))
  · obtain ⟨hu, hpg⟩ := not_or.mp hraise
    rw [State.loadCr0_of_not_raises len (not_not.mp hu) hpg] at h
    repeat' split at h
    · exact nomatch h
    · exact nomatch h
    · exact nomatch h
    · exact nomatch h
    · exact absurd h (State.complete_ne_fault _ _ _ e)

/-- A load of CR3 never faults (R94). -/
theorem State.loadCr3_ne_fault (s : State) (r : Gpr) (len : Nat) (e : Fault) : s.loadCr3 r len ≠ .fault e := by
  unfold State.loadCr3
  split
  · exact nofun
  · split
    · exact nofun
    · exact State.complete_ne_fault _ _ _ e

/-- A load of CR4 faults for the reason R95 (a). -/
theorem State.loadCr4_fault {s : State} {v : Word} {len : Nat} {e : Fault} (h : s.loadCr4 v len = .fault e) :
    e = .generalProtection 0 ∧ upper32 v ≠ 0#32 := by
  unfold State.loadCr4 at h
  split at h
  · exact ⟨(Host.Outcome.fault.inj h).symm, ‹_›⟩
  · split at h
    · exact nomatch h
    · split at h
      · exact nomatch h
      · exact absurd h (State.complete_ne_fault _ _ _ e)

/-- A load of CR8 never faults (R96). -/
theorem State.loadCr8_ne_fault (s : State) (v : Word) (len : Nat) (e : Fault) : s.loadCr8 v len ≠ .fault e := by
  unfold State.loadCr8
  split
  · exact nofun
  · exact State.complete_ne_fault _ _ _ e

/-- Under the upper half zero, a nonzero upper half is presented in 64-bit mode only, and is the register's (R87). -/
theorem State.upper32_srcValue_zero_ne {s : State} {r : Gpr} (h : upper32 (s.srcValue 0#32 r) ≠ 0#32) :
    s.mode = .long64 ∧ upper32 (s.getGpr r) ≠ 0#32 := by
  by_cases hm : s.mode = .long64
  · rw [s.srcValue_long _ r hm] at h
    exact ⟨hm, h⟩
  · exact absurd (State.upper32_srcValue hm _ r) h

/-- The low bits presented are the register's in every mode (R87). -/
theorem State.getLsbD_srcValue (s : State) (u : BitVec 32) (r : Gpr) {k : Nat} (hk : k < 32) :
    (s.srcValue u r).getLsbD k = (s.getGpr r).getLsbD k := by
  rw [getLsbD_eq_lower32 _ k hk, s.lower32_srcValue, ← getLsbD_eq_lower32 _ k hk]

/-- Settles O29: a read has no other fault than the check's, and of the loads only those of CR0 and CR4 have. -/
theorem gpHasOneOfItsFourCauses : Obligations.GpHasOneOfItsFourCauses := by
  intro i s e h
  cases i with
  | movFromCr0 | movFromCr2 | movFromCr3 | movFromCr4 | movFromCr8 =>
    obtain ⟨he, hpriv⟩ := (State.checkPrivilege_fault h).resolve_right (State.complete_ne_fault _ _ _ e)
    exact ⟨he, rfl, .inl hpriv⟩
  | movToCr0 f r =>
    rcases State.checkPrivilege_fault h with ⟨he, hpriv⟩ | h
    · exact ⟨he, rfl, .inl hpriv⟩
    · obtain ⟨he, hupper | hpgpe⟩ := State.loadCr0_fault h
      · exact ⟨he, rfl, .inr (.inl ⟨rfl, .inl rfl, State.upper32_srcValue_zero_ne hupper⟩)⟩
      · rw [s.getLsbD_srcValue _ r (by decide), s.getLsbD_srcValue _ r (by decide)] at hpgpe
        exact ⟨he, rfl, .inr (.inr ⟨rfl, rfl, hpgpe⟩)⟩
  | movToCr2 f r =>
    obtain ⟨he, hpriv⟩ := (State.checkPrivilege_fault h).resolve_right (State.complete_ne_fault _ _ _ e)
    exact ⟨he, rfl, .inl hpriv⟩
  | movToCr3 f r =>
    obtain ⟨he, hpriv⟩ := (State.checkPrivilege_fault h).resolve_right (State.loadCr3_ne_fault _ _ _ e)
    exact ⟨he, rfl, .inl hpriv⟩
  | movToCr4 f r =>
    rcases State.checkPrivilege_fault h with ⟨he, hpriv⟩ | h
    · exact ⟨he, rfl, .inl hpriv⟩
    · obtain ⟨he, hupper⟩ := State.loadCr4_fault h
      exact ⟨he, rfl, .inr (.inl ⟨rfl, .inr rfl, State.upper32_srcValue_zero_ne hupper⟩)⟩
  | movToCr8 f r =>
    obtain ⟨he, hpriv⟩ := (State.checkPrivilege_fault h).resolve_right (State.loadCr8_ne_fault _ _ _ e)
    exact ⟨he, rfl, .inl hpriv⟩
  | _ f r => exact nomatch h

/-! ### The ignored bits -/

/-- What a MOV CRn does, as a function of its length: it stops whatever the length is, or it completes with the length and what does
not depend on it. -/
inductive LengthOnly (s : State) : (Nat → Outcome) → Prop where
  | fault (e : Fault) : LengthOnly s fun _ => .fault e
  | refused (e : Refusal) : LengthOnly s fun _ => .refused e
  | completes (s' : State) (p : Option (Mode × Fin 4)) (hm : s'.mode = s.mode) (hp : s'.pc = s.pc) :
      LengthOnly s fun len => s'.complete len p

/-- A check that does not look at the length. -/
theorem LengthOnly.check {s : State} {c : Prop} [Decidable c] {a b : Nat → Outcome} (ha : LengthOnly s a) (hb : LengthOnly s b) :
    LengthOnly s fun len => if c then a len else b len := by
  by_cases h : c
  · simpa only [if_pos h] using ha
  · simpa only [if_neg h] using hb

theorem State.loadCr0_lengthOnly (s : State) (v : Word) : LengthOnly s (s.loadCr0 v) :=
  .check (.fault _) <| .check (.fault _) <| .check (.refused _) <| .check (.refused _) <| .check (.refused _) <|
    .check (.refused _) <| .completes _ _ rfl rfl

theorem State.loadCr3_lengthOnly (s : State) (r : Gpr) : LengthOnly s (s.loadCr3 r) :=
  .check (.refused _) <| .check (.refused _) <| .completes _ _ rfl rfl

theorem State.loadCr4_lengthOnly (s : State) (v : Word) : LengthOnly s (s.loadCr4 v) :=
  .check (.fault _) <| .check (.refused _) <| .check (.refused _) <| .completes _ _ rfl rfl

theorem State.loadCr8_lengthOnly (s : State) (v : Word) : LengthOnly s (s.loadCr8 v) :=
  .check (.refused _) <| .completes _ _ rfl rfl

/-- Of its form an instruction looks at the length alone (R73, R75, R76). -/
theorem exec_lengthOnly (i : Instr) (s : State) :
    ∃ o, LengthOnly s o ∧ exec i s = o i.form.len ∧ ∀ g, exec (reform i g) s = o g.len := by
  have priv : ∀ {o}, LengthOnly s o → LengthOnly s fun len => s.checkPrivilege (o len) := fun ho => .check ho (.fault _)
  have read : ∀ v r, LengthOnly s fun len => (s.readCr v r).complete len none :=
    fun v r => .completes _ _ (s.readCr_mode v r) (s.readCr_pc v r)
  cases i with
  | movFromCr0 f r => exact ⟨_, priv (read s.cr.cr0 r), rfl, fun _ => rfl⟩
  | movFromCr2 f r => exact ⟨_, priv (read s.cr.cr2 r), rfl, fun _ => rfl⟩
  | movFromCr3 f r => exact ⟨_, priv (read s.cr.cr3 r), rfl, fun _ => rfl⟩
  | movFromCr4 f r => exact ⟨_, priv (read s.cr.cr4 r), rfl, fun _ => rfl⟩
  | movFromCr8 f r => exact ⟨_, priv (.completes (s.setGpr r s.cr.cr8) none rfl rfl), rfl, fun _ => rfl⟩
  | movToCr0 f r => exact ⟨_, priv (s.loadCr0_lengthOnly (s.srcValue 0#32 r)), rfl, fun _ => rfl⟩
  | movToCr2 f r =>
    exact ⟨_, priv (.completes ((s.setCr2 (s.srcValue s.upper2 r)).countDraws 1) none rfl rfl), rfl, fun _ => rfl⟩
  | movToCr3 f r => exact ⟨_, priv (s.loadCr3_lengthOnly r), rfl, fun _ => rfl⟩
  | movToCr4 f r => exact ⟨_, priv (s.loadCr4_lengthOnly (s.srcValue 0#32 r)), rfl, fun _ => rfl⟩
  | movToCr8 f r => exact ⟨_, priv (s.loadCr8_lengthOnly (s.getGpr r)), rfl, fun _ => rfl⟩
  | _ f r => exact ⟨_, .refused _, rfl, fun _ => rfl⟩

/-- Settles O7: two forms of one move stop alike, or complete alike but for pc and the room it needs. -/
theorem ignoredBitsChangeOnlyTheLength : Obligations.IgnoredBitsChangeOnlyTheLength := by
  intro i g s
  obtain ⟨o, ho, hi, hg⟩ := exec_lengthOnly i s
  rw [hi, hg]
  cases ho with
  | fault e =>
    beta_reduce
    exact ⟨fun _ h => (nomatch h), fun _ h => (nomatch h), fun _ h => h, fun _ h => (nomatch h)⟩
  | refused e =>
    beta_reduce
    exact ⟨fun _ h => (nomatch h), fun _ h => (nomatch h), fun _ h => (nomatch h), fun _ h _ => h⟩
  | completes s' p hm hp =>
    beta_reduce
    have hroom := State.pcFits_congr hm hp g.len
    refine ⟨fun t h hfits => ?_, fun t _ hfits => ?_, fun e h => ?_, fun e h hne => ?_⟩
    · obtain ⟨-, rfl⟩ := State.complete_next h
      have hpc : s'.nextPc g.len = s.advancedPc g.len := by
        rw [← s.nextPc_eq_advancedPc _ hfits]; unfold State.nextPc State.ip; rw [hm, hp]
      rw [s'.complete_of_fits _ p (hroom.trans hfits), ← hpc]
      rfl
    · exact s'.complete_of_not_fits _ p (hroom.trans hfits)
    · exact absurd h (s'.complete_ne_fault _ p e)
    · cases hf : s'.pcFits i.form.len with
      | true => rw [s'.complete_of_fits _ p hf] at h; exact nomatch h
      | false => rw [s'.complete_of_not_fits _ p hf] at h; exact absurd (Host.Outcome.refused.inj h).symm hne

end Sys2Proof.Machine
end

section
/-!
Whole-machine rules: MODE and CPL (60_exceptions.md R141, R143), the invariant of 10_state.md R47, the writers of the control
registers (41_processor_events.md R116) and their reserved bits.
-/

namespace Sys2Proof.Machine

/-! ### The bits of CR0 that a load or a task switch sets -/

theorem setBit_getLsbD_ne {k i : Nat} (h : i ≠ k) (v : Word) : (setBit v k).getLsbD i = v.getLsbD i := by
  simp [h]

@[simp] theorem cr0Pe_setTs (v : Word) : cr0Pe (setBit v 3) = cr0Pe v := setBit_getLsbD_ne (by decide) v
@[simp] theorem cr0Pg_setTs (v : Word) : cr0Pg (setBit v 3) = cr0Pg v := setBit_getLsbD_ne (by decide) v
@[simp] theorem cr0Et_setTs (v : Word) : cr0Et (setBit v 3) = cr0Et v := setBit_getLsbD_ne (by decide) v

/-- Setting a low bit leaves the upper half alone. -/
theorem upper32_setBit {k : Nat} (hk : k < 32) (v : Word) : upper32 (setBit v k) = upper32 v := by
  apply BitVec.eq_of_getLsbD_eq; intro i hi
  rw [getLsbD_upper32, getLsbD_upper32, setBit_getLsbD_ne (by omega)]

/-- Setting a bit that a mask leaves out changes nothing under the mask. -/
theorem setBit_and_mask {k : Nat} {mask : Word} (h : mask.getLsbD k = false) (v : Word) : setBit v k &&& mask = v &&& mask := by
  apply BitVec.eq_of_getLsbD_eq; intro i hi
  rw [BitVec.getLsbD_and, BitVec.getLsbD_and]
  by_cases hik : i = k
  · subst hik; rw [h, Bool.and_false, Bool.and_false]
  · rw [setBit_getLsbD_ne hik]

theorem upper32_cr0Stored (f : Family) (v : Word) : upper32 (cr0Stored f v) = upper32 v := by
  unfold cr0Stored
  split
  · exact upper32_setBit (by decide) v
  · rfl

/-- What is stored in CR0 has ET set where the family hardwires it (R18). -/
theorem cr0Et_cr0Stored {f : Family} (h : etHardwired f = true) (v : Word) : cr0Et (cr0Stored f v) = true := by
  rw [cr0Stored, if_pos h, cr0Et, setBit_getLsbD, decide_eq_true rfl, Bool.true_and, decide_eq_true (by decide), Bool.or_true]

/-! ### MODE and CPL -/

theorem modeCr0Ok_congr {v w : Word} (hpe : cr0Pe v = cr0Pe w) (hpg : cr0Pg v = cr0Pg w) (m : Mode) :
    modeCr0Ok m v = modeCr0Ok m w := by
  rw [modeCr0Ok, modeCr0Ok, hpe, hpg]

/-- The environment's wish is granted where it is allowed. -/
theorem State.nextMode_of_allowed {s : State} {v : Word} (h : s.modeAllowed v s.wantedMode.1 s.wantedMode.2 = true) :
    s.nextMode v = s.wantedMode := if_pos h

theorem State.changesPeOrPg_iff (s : State) (v : Word) :
    s.changesPeOrPg v = true ↔ cr0Pe v ≠ cr0Pe s.cr.cr0 ∨ cr0Pg v ≠ cr0Pg s.cr.cr0 := by
  simp [State.changesPeOrPg]

/-- After a MOV to CR0 either MODE, CPL, PE and PG are as before, or PE or PG changed and the environment's next MODE and CPL are
in force (R92). -/
theorem State.loadCr0_modes {s t : State} {v : Word} {len : Nat} (h : s.loadCr0 v len = .next t) :
    (ModeKept s t ∧ s.changesPeOrPg t.cr.cr0 = false) ∨
      (s.changesPeOrPg t.cr.cr0 = true ∧ t.mode = (s.nextMode t.cr.cr0).1 ∧ t.cpl = (s.nextMode t.cr.cr0).2 ∧
        t.modeInput = none) := by
  obtain ⟨-, -, -, -, -, -, -, rfl⟩ := State.loadCr0_next h
  have hcr0 : ∀ len p, ((s.setCr0 (cr0Stored s.cfg.family v)).completed len p).cr.cr0 = cr0Stored s.cfg.family v :=
    fun _ _ => rfl
  simp only [hcr0]
  generalize cr0Stored s.cfg.family v = w
  cases hc : s.changesPeOrPg w with
  | false =>
    rw [State.modeAtLoad, hc, if_neg Bool.false_ne_true]
    exact .inl ⟨⟨rfl, rfl, rfl⟩, rfl⟩
  | true =>
    rw [State.modeAtLoad, hc, if_pos rfl]
    exact .inr ⟨rfl, rfl, rfl, rfl⟩

/-- What any instruction can do to MODE and CPL: nothing, or it is a MOV to CR0 that changes PE or PG and takes the environment's
next MODE and CPL with it. -/
theorem exec_next_modes {i : Instr} {s t : State} (h : exec i s = .next t) :
    ModeKept s t ∨
      ((∃ f r, i = .movToCr0 f r) ∧ (cr0Pg t.cr.cr0 = true → cr0Pe t.cr.cr0 = true) ∧ s.changesPeOrPg t.cr.cr0 = true ∧
        t.mode = (s.nextMode t.cr.cr0).1 ∧ t.cpl = (s.nextMode t.cr.cr0).2) := by
  rcases exec_next_cr h with ⟨hk, -⟩ | ⟨f, r, rfl, hload⟩ | ⟨-, -, -, hk, -⟩ | ⟨-, -, -, hk, -⟩ | ⟨-, -, -, hk, -⟩ |
    ⟨-, -, -, hk, -⟩
  · exact .inl hk
  · rcases State.loadCr0_modes hload with ⟨hk, -⟩ | ⟨hc, hm, hl, -⟩
    · exact .inl hk
    · refine .inr ⟨⟨f, r, rfl⟩, ?_, hc, hm, hl⟩
      obtain ⟨-, hpg, -, -, -, -, -, rfl⟩ := State.loadCr0_next hload
      simpa using hpg
  all_goals exact .inl hk

/-- The two constraints on MODE and CPL, spelt out (R141 (a), R143 (c)). -/
theorem mode_constraints {m : Mode} {cpl : Fin 4} {v : Word} (hcpl : modeCplOk m cpl = true) (hcr0 : modeCr0Ok m v = true) :
    (m = .v86 → cpl = 3) ∧ (m = .real ↔ v.getLsbD 0 = false) ∧
      (isIa32e m = true → v.getLsbD 31 = true ∧ v.getLsbD 0 = true) :=
  ⟨(modeCplOk_iff m cpl).mp hcpl, (modeCr0Ok_iff m v).mp hcr0⟩

/-- Settles O38: MODE and CPL have two writers, and each keeps both constraints. -/
theorem modeChangesObeyTheirConstraints : Obligations.ModeChangesObeyTheirConstraints := by
  intro s t h hne
  rcases step_cases h with ⟨i, es, hruns, -, hx⟩ | ⟨e, es, henv, hx⟩
  · rcases exec_next_modes hx with hk | ⟨⟨f, r, rfl⟩, -, hc, hm, hl⟩
    · exact absurd hne (not_or.mpr ⟨not_not.mpr hk.mode, not_not.mpr hk.cpl⟩)
    · obtain ⟨hcpl, hcr0⟩ := State.nextMode_ok { s with env := es } t.cr.cr0
      rw [← hm] at hcpl hcr0
      rw [← hl] at hcpl
      exact ⟨.inr ⟨⟨f, r, hruns⟩, (State.changesPeOrPg_iff _ _).mp hc⟩, mode_constraints hcpl hcr0⟩
  · obtain ⟨-, -, ⟨hm, hl⟩ | ⟨m, c, rfl, hallowed, hm, hl, hcr⟩, -⟩ := applyEvent_next hx
    · exact absurd hne (not_or.mpr ⟨not_not.mpr hm, not_not.mpr hl⟩)
    · obtain ⟨hcpl, hcr0, -⟩ := (State.modeAllowed_iff ..).mp hallowed
      rw [← hm, ← hcr] at hcr0
      rw [← hm, ← hl] at hcpl
      exact ⟨.inl ⟨m, c, ⟨es, henv⟩, hm, hl⟩, mode_constraints hcpl hcr0⟩

/-- Settles O39: a MOV that agrees with CR0 before leaves an allowed MODE, and an event has no change of CR0 to allow one. -/
theorem onlyMovToCr0ThatChangesPgAllowsIa32eChange : Obligations.OnlyMovToCr0ThatChangesPgAllowsIa32eChange := by
  intro s t hinv h
  rcases step_cases h with ⟨i, es, hruns, -, hx⟩ | ⟨e, es, -, hx⟩
  · rcases exec_next_modes hx with hk | ⟨⟨f, r, rfl⟩, hpgpe, hc, hm, -⟩
    · exact ⟨fun hne => absurd (congrArg isIa32e hk.mode) hne, fun hne => absurd (by rw [hk.mode]) hne⟩
    · have hallowed := State.nextMode_allowed { s with env := es } t.cr.cr0 hinv.modeCr0 hpgpe hc
      obtain ⟨-, -, hia32e, hreal⟩ := (State.modeAllowed_iff ..).mp hallowed
      rw [← hm] at hia32e hreal
      exact ⟨fun hne => ⟨⟨f, r, hruns⟩, hia32e.resolve_left hne⟩, fun hne => ⟨⟨f, r, hruns⟩, hreal.resolve_left hne⟩⟩
  · obtain ⟨-, -, ⟨hm, -⟩ | ⟨m, c, rfl, hallowed, hm, -⟩, -⟩ := applyEvent_next hx
    · exact ⟨fun hne => absurd (congrArg isIa32e hm) hne, fun hne => absurd (by rw [hm]) hne⟩
    · obtain ⟨-, -, hia32e, hreal⟩ := (State.modeAllowed_iff ..).mp hallowed
      rw [← hm] at hia32e hreal
      exact ⟨fun hne => absurd (hia32e.resolve_right (not_not.mpr rfl)) hne,
        fun hne => absurd (hreal.resolve_right (not_not.mpr rfl)) hne⟩

/-- Settles O52: such a MOV puts `nextMode` in force, which grants every allowed wish. -/
theorem movToCr0TakesTheEnvironmentsMode : Obligations.MovToCr0TakesTheEnvironmentsMode := by
  intro s t f r h hne
  have hc : s.changesPeOrPg t.cr.cr0 = true := (s.changesPeOrPg_iff _).mpr hne
  obtain ⟨-, hm, hl, hinput⟩ := (State.loadCr0_modes (execMovToCr0_next h).2).resolve_left (by simp [hc])
  obtain ⟨hcpl, hcr0⟩ := s.nextMode_ok t.cr.cr0
  rw [← hm] at hcpl hcr0
  rw [← hl] at hcpl
  obtain ⟨hv86, hreal, hia32e⟩ := mode_constraints hcpl hcr0
  have granted : ∀ m cpl, s.wantedMode = (m, cpl) → s.modeAllowed t.cr.cr0 m cpl = true → t.mode = m ∧ t.cpl = cpl := by
    intro m cpl hw hallowed
    rw [hm, hl, State.nextMode_of_allowed (by rw [hw]; exact hallowed), hw]
    exact ⟨rfl, rfl⟩
  exact ⟨hinput, hv86, hreal, hia32e, fun m cpl hw => granted m cpl (by rw [State.wantedMode, hw]; rfl),
    fun hw => granted s.mode s.cpl (by rw [State.wantedMode, hw]; rfl)⟩

/-! ### The invariant -/

/-- The clauses of the invariant that speak of CR0, with the MODE and CPL that have to agree with it. -/
def Cr0Inv (c : Config) (m : Mode) (cpl : Fin 4) (v : Word) : Prop :=
  upper32 v = 0#32 ∧ (etHardwired c.family = true → cr0Et v = true) ∧ (cr0Pg v = true → cr0Pe v = true) ∧
    modeCplOk m cpl = true ∧ modeCr0Ok m v = true

/-- The invariant register by register. -/
theorem State.inv_iff (s : State) :
    s.Inv ↔ Cr0Inv s.cfg s.mode s.cpl s.cr.cr0 ∧ s.cr.cr3.extractLsb' 40 12 = 0#12 ∧ upper32 s.cr.cr4 = 0#32 ∧
      s.cr.cr8 &&& ~~~ tprMask s.cfg = 0#64 ∧ Memory.wf s.mem = true := by
  constructor
  · intro h
    exact ⟨⟨h.cr0Upper, h.et, h.pgPe, (modeCplOk_iff _ _).mpr h.v86, h.modeCr0⟩, h.cr3Reserved, h.cr4Upper, h.cr8Reserved,
      h.memWf⟩
  · rintro ⟨⟨hupper, het, hpgpe, hcpl, hmode⟩, h3, h4, h8, hmem⟩
    exact ⟨hupper, h4, het, hpgpe, h3, h8, (modeCplOk_iff _ _).mp hcpl, hmode, hmem⟩

/-- Setting TS keeps the clauses on CR0: it is none of the bits they speak of. -/
theorem Cr0Inv.setTs {c : Config} {m : Mode} {cpl : Fin 4} {v : Word} (h : Cr0Inv c m cpl v) : Cr0Inv c m cpl (setBit v 3) := by
  unfold Cr0Inv at h ⊢
  rwa [upper32_setBit (by decide), cr0Et_setTs, cr0Pg_setTs, cr0Pe_setTs,
    modeCr0Ok_congr (cr0Pe_setTs v) (cr0Pg_setTs v)]

/-- A load of CR0 that completes checked the upper half and PG without PE, sets ET, and takes an agreeing MODE where PE or PG
changed (R92). -/
theorem Cr0Inv.loadCr0 {s t : State} {v : Word} {len : Nat} (h : Cr0Inv s.cfg s.mode s.cpl s.cr.cr0)
    (hload : s.loadCr0 v len = .next t) : Cr0Inv s.cfg t.mode t.cpl t.cr.cr0 := by
  have hmodes : modeCplOk t.mode t.cpl = true ∧ modeCr0Ok t.mode t.cr.cr0 = true := by
    rcases State.loadCr0_modes hload with ⟨hk, hc⟩ | ⟨-, hm, hl, -⟩
    · obtain ⟨-, -, -, hcpl, hmode⟩ := h
      obtain ⟨hpe, hpg⟩ : cr0Pe t.cr.cr0 = cr0Pe s.cr.cr0 ∧ cr0Pg t.cr.cr0 = cr0Pg s.cr.cr0 := by
        simpa [State.changesPeOrPg] using hc
      rw [hk.mode, hk.cpl, modeCr0Ok_congr hpe hpg]
      exact ⟨hcpl, hmode⟩
    · rw [hm, hl]; exact s.nextMode_ok t.cr.cr0
  obtain ⟨hupper, hpgpe, -, -, -, -, -, rfl⟩ := State.loadCr0_next hload
  exact ⟨(upper32_cr0Stored _ v).trans hupper, fun het => cr0Et_cr0Stored het v, by simpa using hpgpe, hmodes⟩

/-- A completed instruction leaves memory and the parameters as they are. -/
theorem exec_next_mem {i : Instr} {s t : State} (h : exec i s = .next t) : t.mem = s.mem ∧ t.cfg = s.cfg := by
  obtain ⟨-, -, s', p, rfl, hs', -⟩ := exec_next_shape h
  rw [hs']
  exact ⟨rfl, rfl⟩

/-- Every completed instruction keeps the invariant: what it writes has passed the checks of R92 to R96. -/
theorem exec_keeps_inv {i : Instr} {s t : State} (hinv : s.Inv) (h : exec i s = .next t) : t.Inv := by
  obtain ⟨hmem, hcfg⟩ := exec_next_mem h
  rw [State.inv_iff] at hinv ⊢
  rw [hmem, hcfg]
  obtain ⟨h0, h3, h4, h8, hwf⟩ := hinv
  rcases exec_next_cr h with ⟨hk, hcr⟩ | ⟨f, r, rfl, hload⟩ | ⟨-, -, -, hk, v, hcr⟩ | ⟨-, -, -, hk, v, hbits, -, hcr⟩ |
    ⟨-, -, -, hk, v, hupper, -, hcr⟩ | ⟨-, -, -, hk, v, hbits, hcr⟩
  · rw [hk.mode, hk.cpl, hcr]; exact ⟨h0, h3, h4, h8, hwf⟩
  · refine ⟨h0.loadCr0 hload, ?_⟩
    obtain ⟨-, -, -, -, -, -, -, rfl⟩ := State.loadCr0_next hload
    exact ⟨h3, h4, h8, hwf⟩
  · rw [hk.mode, hk.cpl, hcr]; exact ⟨h0, h3, h4, h8, hwf⟩
  · rw [hk.mode, hk.cpl, hcr]; exact ⟨h0, hbits, h4, h8, hwf⟩
  · rw [hk.mode, hk.cpl, hcr]; exact ⟨h0, h3, hupper, h8, hwf⟩
  · rw [hk.mode, hk.cpl, hcr]; exact ⟨h0, h3, h4, hbits, hwf⟩

/-- Every event that happens keeps the invariant: R112 limits the CR3 of a task switch, R141 and R143 the change of MODE. -/
theorem applyEvent_keeps_inv {e : Event} {s t : State} (hinv : s.Inv) (h : applyEvent e s = .next t) : t.Inv := by
  obtain ⟨⟨hmem, hcfg, -⟩, -, hmodes, hcrs⟩ := applyEvent_next h
  rw [State.inv_iff] at hinv ⊢
  rw [hmem, hcfg]
  obtain ⟨h0, h3, h4, h8, hwf⟩ := hinv
  rcases hmodes with ⟨hm, hl⟩ | ⟨m, c, -, hallowed, hm, hl, hcr⟩
  · rw [hm, hl]
    rcases hcrs with hcr | ⟨la, -, v, hcr⟩ | ⟨w, -, hbits, -, hcr⟩
    · rw [hcr]; exact ⟨h0, h3, h4, h8, hwf⟩
    · rw [hcr]; exact ⟨h0, h3, h4, h8, hwf⟩
    · rw [hcr]; exact ⟨h0.setTs, hbits, h4, h8, hwf⟩
  · obtain ⟨hcpl, hmode, -⟩ := (State.modeAllowed_iff ..).mp hallowed
    obtain ⟨hupper, het, hpgpe, -, -⟩ := h0
    rw [hm, hl, hcr]
    exact ⟨⟨hupper, het, hpgpe, hcpl, hmode⟩, h3, h4, h8, hwf⟩

/-- The schedule is no part of the invariant. -/
theorem State.Inv.with_env {s : State} (h : s.Inv) (es : List EnvStep) : State.Inv { s with env := es } :=
  (State.inv_iff _).mpr (s.inv_iff.mp h)

/-- Settles O43: a step is an instruction or an event, in a state that differs in its schedule alone. -/
theorem everyStepKeepsTheInvariant : Obligations.EveryStepKeepsTheInvariant := by
  intro s t hinv h
  rcases step_cases h with ⟨i, es, -, -, hx⟩ | ⟨e, es, -, hx⟩
  · exact exec_keeps_inv (hinv.with_env es) hx
  · exact applyEvent_keeps_inv (hinv.with_env es) hx

/-- Settles O41: the reset values of R46 by default have PE, PG and CR4 clear, and ET set. -/
theorem resetMeetsTheLaunchPremises : Obligations.ResetMeetsTheLaunchPremises :=
  (State.inv_iff _).mpr ⟨⟨rfl, fun _ => rfl, nofun, rfl, rfl⟩, rfl, rfl, rfl, Memory.wf_reset⟩

/-- Settles O42: reset copies the parameters. -/
theorem resetLeavesTheParameterValues : Obligations.ResetLeavesTheParameterValues :=
  ⟨fun _ => ⟨rfl, rfl⟩, rfl, rfl, rfl, rfl⟩

/-! ### Who writes what -/

/-- A completed instruction changes a control register only if it is the MOV to it. -/
theorem exec_next_writers {i : Instr} {s t : State} (h : exec i s = .next t) :
    (t.cr.cr0 ≠ s.cr.cr0 → ∃ f r, i = .movToCr0 f r) ∧ (t.cr.cr2 ≠ s.cr.cr2 → ∃ f r, i = .movToCr2 f r) ∧
      (t.cr.cr3 ≠ s.cr.cr3 → ∃ f r, i = .movToCr3 f r) ∧ (t.cr.cr4 ≠ s.cr.cr4 → ∃ f r, i = .movToCr4 f r) ∧
      (t.cr.cr8 ≠ s.cr.cr8 → ∃ f r, i = .movToCr8 f r) := by
  rcases exec_next_cr h with ⟨-, hcr⟩ | ⟨f, r, rfl, hload⟩ | ⟨f, r, rfl, -, v, hcr⟩ | ⟨f, r, rfl, -, v, -, -, hcr⟩ |
    ⟨f, r, rfl, -, v, -, -, hcr⟩ | ⟨f, r, rfl, -, v, -, hcr⟩
  · simp [hcr]
  · obtain ⟨-, -, -, -, -, -, -, rfl⟩ := State.loadCr0_next hload
    simp
  all_goals simp [hcr]

/-- An event that happens changes a control register only if it is a page fault, which writes CR2, or a task switch, which writes CR0
and CR3. -/
theorem applyEvent_next_writers {e : Event} {s t : State} (h : applyEvent e s = .next t) :
    (t.cr.cr0 ≠ s.cr.cr0 → ∃ w, e = .taskSwitch w) ∧ (t.cr.cr2 ≠ s.cr.cr2 → ∃ la, e = .pageFault la) ∧
      (t.cr.cr3 ≠ s.cr.cr3 → ∃ w, e = .taskSwitch w) ∧ t.cr.cr4 = s.cr.cr4 ∧ t.cr.cr8 = s.cr.cr8 := by
  obtain ⟨-, -, -, hcr | ⟨la, rfl, v, hcr⟩ | ⟨w, rfl, -, -, hcr⟩⟩ := applyEvent_next h <;> simp [hcr]

/-- Only in 64-bit mode a step runs a MOV to CR8 (R72, R80). -/
theorem State.runs_movToCr8 {s : State} {f : Form} {r : Gpr} (h : s.runs (.movToCr8 f r)) : s.mode = .long64 := by
  obtain ⟨-, rest, hd⟩ := h
  by_contra hm
  obtain ⟨-, hlt, -⟩ := outsideLongModeNumbersAreBelowEight _ _ _ _ hm hd
  exact absurd hlt (show ¬ 8#4 < 8#4 by decide)

/-- Settles O44: the writers of an instruction step and those of an event step. -/
theorem onlyTheNamedWritersChangeControlRegisters : Obligations.OnlyTheNamedWritersChangeControlRegisters := by
  intro s t h
  rcases step_cases h with ⟨i, es, hruns, -, hx⟩ | ⟨e, es, henv, hx⟩
  · obtain ⟨h0, h2, h3, h4, h8⟩ := exec_next_writers hx
    refine ⟨fun hne => .inl ?_, fun hne => .inl ?_, fun hne => .inl ?_, fun hne => ?_, fun hne => ?_⟩
    · obtain ⟨f, r, rfl⟩ := h0 hne; exact ⟨f, r, hruns⟩
    · obtain ⟨f, r, rfl⟩ := h2 hne; exact ⟨f, r, hruns⟩
    · obtain ⟨f, r, rfl⟩ := h3 hne; exact ⟨f, r, hruns⟩
    · obtain ⟨f, r, rfl⟩ := h4 hne; exact ⟨f, r, hruns⟩
    · obtain ⟨f, r, rfl⟩ := h8 hne; exact ⟨State.runs_movToCr8 hruns, f, r, hruns⟩
  · obtain ⟨h0, h2, h3, h4, h8⟩ := applyEvent_next_writers hx
    refine ⟨fun hne => .inr ?_, fun hne => .inr ?_, fun hne => .inr ?_, fun hne => absurd h4 hne, fun hne => absurd h8 hne⟩
    · obtain ⟨w, rfl⟩ := h0 hne; exact ⟨w, es, henv⟩
    · obtain ⟨la, rfl⟩ := h2 hne; exact ⟨la, es, henv⟩
    · obtain ⟨w, rfl⟩ := h3 hne; exact ⟨w, es, henv⟩

/-- A step that runs an instruction takes no event. -/
theorem State.runs_not_takes {s : State} {i : Instr} {e : Event} (hr : s.runs i) (ht : s.takes e) : False := by
  obtain ⟨es, ht⟩ := ht
  rcases hr.1 with h | ⟨es', h⟩
  · exact nomatch h.symm.trans ht
  · exact nomatch h.symm.trans ht

/-- Settles O46: neither instructions nor events store to memory, and AC is written by its own event alone. -/
theorem stepsWriteNoMemory : Obligations.StepsWriteNoMemory := by
  intro s t h
  rcases step_cases h with ⟨i, es, hruns, -, hx⟩ | ⟨e, es, henv, hx⟩
  · obtain ⟨hmem, hcfg⟩ := exec_next_mem hx
    obtain ⟨hframe, -⟩ := exec_next_done hx
    exact ⟨fun a => congrArg (Memory.read1 · a) hmem, hmem, hcfg,
      fun ⟨_, htakes⟩ => (State.runs_not_takes hruns htakes).elim, fun hne => absurd hframe.ac hne⟩
  · obtain ⟨⟨hmem, hcfg, hgpr, hpc, hflags⟩, hac, -, -⟩ := applyEvent_next hx
    refine ⟨fun a => congrArg (Memory.read1 · a) hmem, hmem, hcfg, fun _ => ⟨hgpr, hpc, hflags⟩, fun hne => ?_⟩
    obtain ⟨b, rfl⟩ := hac.resolve_left hne
    exact ⟨b, es, henv⟩

/-! ### Reserved bits -/

/-- The three registers hold the same bits under the masks of R4. -/
def MasksKept (c : Config) (a b : CtrlRegs) : Prop :=
  b.cr0 &&& cr0Reserved c = a.cr0 &&& cr0Reserved c ∧ b.cr3 &&& cr3RsvdOther c = a.cr3 &&& cr3RsvdOther c ∧
    b.cr4 &&& cr4Reserved c = a.cr4 &&& cr4Reserved c

/-- A value that changes no bit of a mask holds the same bits under it. -/
theorem and_eq_of_change_eq_zero {v w mask : Word} (h : (v ^^^ w) &&& mask = 0#64) : v &&& mask = w &&& mask := by
  have hsplit : (v ^^^ w) &&& mask = (v &&& mask) ^^^ (w &&& mask) := by
    apply BitVec.eq_of_getLsbD_eq; intro i hi
    simp only [BitVec.getLsbD_and, BitVec.getLsbD_xor, Bool.and_xor_distrib_right]
  exact BitVec.xor_eq_zero_iff.mp (hsplit.symm.trans h)

/-- TS is no reserved bit of CR0, nor is ET where the family hardwires it. -/
theorem cr0Reserved_getLsbD {c : Config} (h : cr0MaskOk c = true) :
    (cr0Reserved c).getLsbD 3 = false ∧ (etHardwired c.family = true → (cr0Reserved c).getLsbD 4 = false) := by
  have hmask : c.cr0RsvdMask &&& 0xE005003F#32 = 0#32 := by simpa [cr0MaskOk] using h
  have hbit : ∀ k, (0xE005003F#32).getLsbD k = true → c.cr0RsvdMask.getLsbD k = false := by
    intro k hk
    have := congrArg (fun x => x.getLsbD k) hmask
    rwa [BitVec.getLsbD_and, hk, Bool.and_true, BitVec.getLsbD_zero] at this
  constructor
  · rw [cr0Reserved, BitVec.getLsbD_or, BitVec.getLsbD_setWidth, hbit 3 rfl]
    split <;> rfl
  · intro het
    have hfamily : c.family ≠ .pentium := fun hf => by rw [hf] at het; exact nomatch het
    rw [cr0Reserved, BitVec.getLsbD_or, BitVec.getLsbD_setWidth, hbit 4 rfl, if_neg hfamily]
    rfl

/-- What is stored in CR0 differs from the value written in no reserved bit. -/
theorem cr0Stored_and_reserved {c : Config} (h : cr0MaskOk c = true) (v : Word) :
    cr0Stored c.family v &&& cr0Reserved c = v &&& cr0Reserved c := by
  unfold cr0Stored
  split
  · rename_i het; exact setBit_and_mask ((cr0Reserved_getLsbD h).2 het) v
  · rfl

/-- Every completed instruction keeps the bits under the masks: a load that changes one is refused (R92 (f), R94 (b), R95 (b)). -/
theorem exec_keeps_masks {i : Instr} {s t : State} (hok : cr0MaskOk s.cfg = true) (h : exec i s = .next t) :
    MasksKept s.cfg s.cr t.cr := by
  rcases exec_next_cr h with ⟨-, hcr⟩ | ⟨f, r, rfl, hload⟩ | ⟨-, -, -, -, v, hcr⟩ | ⟨-, -, -, -, v, -, hmask, hcr⟩ |
    ⟨-, -, -, -, v, -, hmask, hcr⟩ | ⟨-, -, -, -, v, -, hcr⟩
  · rw [hcr]; exact ⟨rfl, rfl, rfl⟩
  · obtain ⟨-, -, -, -, -, hmask, -, rfl⟩ := State.loadCr0_next hload
    exact ⟨(cr0Stored_and_reserved hok _).trans (and_eq_of_change_eq_zero hmask), rfl, rfl⟩
  · rw [hcr]; exact ⟨rfl, rfl, rfl⟩
  · rw [hcr]; exact ⟨rfl, and_eq_of_change_eq_zero hmask, rfl⟩
  · rw [hcr]; exact ⟨rfl, rfl, and_eq_of_change_eq_zero hmask⟩
  · rw [hcr]; exact ⟨rfl, rfl, rfl⟩

/-- Every event that happens keeps the bits under the masks: a task switch sets TS and brings CR3's own reserved bits (R112). -/
theorem applyEvent_keeps_masks {e : Event} {s t : State} (hok : cr0MaskOk s.cfg = true) (h : applyEvent e s = .next t) :
    MasksKept s.cfg s.cr t.cr := by
  obtain ⟨-, -, -, hcr | ⟨la, -, v, hcr⟩ | ⟨w, -, -, hmask, hcr⟩⟩ := applyEvent_next h
  · rw [hcr]; exact ⟨rfl, rfl, rfl⟩
  · rw [hcr]; exact ⟨rfl, rfl, rfl⟩
  · rw [hcr]; exact ⟨setBit_and_mask (cr0Reserved_getLsbD hok).1 _, hmask, rfl⟩

/-- Settles O54. -/
theorem maskedBitsNeverChange : Obligations.MaskedBitsNeverChange := by
  intro s t hok h
  rcases step_cases h with ⟨i, es, -, -, hx⟩ | ⟨e, es, -, hx⟩
  · exact exec_keeps_masks (s := { s with env := es }) hok hx
  · exact applyEvent_keeps_masks (s := { s with env := es }) hok hx

/-- Settles O45: the bits under the masks never change, and the others have one value under the invariant, which the step keeps. -/
theorem reservedBitsNeverChange : Obligations.ReservedBitsNeverChange := by
  intro s t hs hok h
  have ht : t.Inv := everyStepKeepsTheInvariant s t hs h
  obtain ⟨-, -, hcfg, -, -⟩ := stepsWriteNoMemory s t h
  obtain ⟨h0, h3, h4⟩ := maskedBitsNeverChange s t hok h
  have het := ht.et
  have h8 := ht.cr8Reserved
  rw [hcfg] at het h8
  exact ⟨h0, h3, h4, ht.cr0Upper.trans hs.cr0Upper.symm, ht.cr4Upper.trans hs.cr4Upper.symm,
    ht.cr3Reserved.trans hs.cr3Reserved.symm, h8.trans hs.cr8Reserved.symm, fun hf => (het hf).trans (hs.et hf).symm⟩

end Sys2Proof.Machine
end

section
/-!
The environment's events (41_processor_events.md R110 to R115, 60_exceptions.md R137, R138) and the memory system's contract
(20_memory.md R51 to R61).
-/

namespace Sys2Proof.Machine

/-! ### Page faults and translation -/

theorem State.pageFault_of_pg {s : State} (h : cr0Pg s.cr.cr0 = true) (la : Word) :
    s.pageFault la = .next ((s.setCr2 (if s.mode = .long64 then la else join32 s.upper2 (lower32 la))).countDraws 1) :=
  if_pos h

theorem State.pageFault_of_not_pg {s : State} (h : cr0Pg s.cr.cr0 = false) (la : Word) :
    s.pageFault la = .refused .eventNotEnabled :=
  if_neg (Bool.eq_false_iff.mp h)

/-- Settles O31. -/
theorem pageFaultWritesCr2 : Obligations.PageFaultWritesCr2 := by
  intro s la es henv hpg
  exact ⟨_, (step_of_env_event henv).trans (State.pageFault_of_pg (s := { s with env := es }) hpg la), rfl, rfl⟩

/-- Without translation an address is its own physical address (R51, R53). -/
theorem State.translate_of_not_pagingActive {s : State} (h : s.pagingActive = false) (la : Word) (access : AccessKind) :
    s.translate la access = .physical la :=
  if_neg (Bool.eq_false_iff.mp h)

/-- Settles O32: PG is asked for by translation and by a page fault. -/
theorem withoutPagingAddressesArePhysical : Obligations.WithoutPagingAddressesArePhysical := by
  intro s hpg
  refine ⟨State.translate_of_not_pagingActive ?_, fun la es henv t h => ?_⟩
  · rw [State.pagingActive, cr0Pg, hpg, Bool.false_and]
  · exact nomatch ((step_of_env_event henv).trans (State.pageFault_of_not_pg (s := { s with env := es }) hpg la)).symm.trans h

/-- Settles O33: translation asks for PE beside PG. -/
theorem withoutPeNoTranslation : Obligations.WithoutPeNoTranslation := by
  intro s la access hpe
  exact State.translate_of_not_pagingActive (by rw [State.pagingActive, cr0Pe, hpe, Bool.and_false]) la access

/-! ### Task switches and changes of MODE -/

/-- What R112 asks of the CR3 of a task switch. -/
theorem State.taskCr3Ok_iff (s : State) (w : Word) :
    s.taskCr3Ok w = true ↔ w.extractLsb' 40 12 = 0#12 ∧ w &&& cr3RsvdOther s.cfg = s.cr.cr3 &&& cr3RsvdOther s.cfg := by
  rw [State.taskCr3Ok, Bool.and_eq_true, beq_iff_eq, beq_iff_eq]

/-- Settles O34. -/
theorem taskSwitchSetsTs : Obligations.TaskSwitchSetsTs := by
  intro s w es henv hbits hmask
  rw [step_of_env_event henv]
  exact if_pos ((State.taskCr3Ok_iff _ w).mpr ⟨hbits, hmask⟩)

/-- The change of MODE that R141 and R143 allow between two instructions, where CR0 stays (R115). -/
theorem State.modeAllowed_same_cr0_iff (s : State) (m : Mode) (cpl : Fin 4) :
    s.modeAllowed s.cr.cr0 m cpl = true ↔
      (m = .v86 → cpl = 3) ∧ ((m = .real ↔ s.cr.cr0.getLsbD 0 = false) ∧
        (isIa32e m = true → s.cr.cr0.getLsbD 31 = true ∧ s.cr.cr0.getLsbD 0 = true)) ∧
        isIa32e m = isIa32e s.mode ∧ (m = .real ↔ s.mode = .real) := by
  rw [State.modeAllowed_iff, modeCplOk_iff, modeCr0Ok_iff]
  simp only [ne_eq, not_true_eq_false, or_false]
  rfl

/-- Settles O53. -/
theorem modeEventsTakeEffect : Obligations.ModeEventsTakeEffect := by
  intro s m cpl es henv hv86 hreal hia32e hsame hsameReal
  rw [step_of_env_event henv]
  exact if_pos ((State.modeAllowed_same_cr0_iff { s with env := es } m cpl).mpr
    ⟨hv86, ⟨hreal, hia32e⟩, hsame, hsameReal⟩)

/-- Settles O35: each condition contradicts one that the event asks for. -/
theorem eventsThatCannotOccurAreRefused : Obligations.EventsThatCannotOccurAreRefused := by
  intro s es
  refine ⟨fun la henv hpg => ?_, fun w henv hw => ?_, fun m cpl henv hm => ?_⟩
  · exact (step_of_env_event henv).trans (State.pageFault_of_not_pg (s := { s with env := es }) hpg la)
  · rw [step_of_env_event henv]
    exact if_neg (mt (State.taskCr3Ok_iff _ w).mp hw)
  · rw [step_of_env_event henv]
    refine if_neg fun hallowed => ?_
    obtain ⟨hv86, ⟨hreal, hia32e⟩, hsame, hsameReal⟩ :=
      (State.modeAllowed_same_cr0_iff { s with env := es } m cpl).mp hallowed
    rcases hm with ⟨h, hne⟩ | ⟨h, hpe⟩ | ⟨h, hpe⟩ | ⟨h, hne⟩ | hne | hne
    · exact hne (hv86 h)
    · exact Bool.eq_false_iff.mp (hreal.mp h) hpe
    · exact h (hreal.mpr hpe)
    · exact hne (hia32e h)
    · exact hne hsame
    · exact hne hsameReal

/-! ### Interrupts, x87 FPU errors and the other inputs -/

/-- With the default threshold field the threshold is CR8 bits 3:0 (R38, R137). -/
theorem tprOf_default {c : Config} (hhi : c.tprHi = 3) (hlo : c.tprLo = 0) (v : Word) :
    (tprOf c v).toNat = (v.extractLsb' 0 4).toNat := by
  have hmask : tprWidthMask c = 0xF#64 := by rw [tprWidthMask, hhi, hlo]; rfl
  rw [tprOf, hmask, hlo, BitVec.toNat_and, BitVec.ushiftRight_zero, BitVec.extractLsb'_toNat, Nat.shiftRight_zero]
  exact Nat.and_two_pow_sub_one_eq_mod v.toNat 4

/-- Settles O36. -/
theorem tprFiltersExternalInterrupts : Obligations.TprFiltersExternalInterrupts := by
  intro s cls es hhi hlo henv
  constructor
  · rw [State.mayInterrupt, decide_eq_true_iff, tprOf_default hhi hlo]
  · rw [step_of_env_event henv]
    have hfilter : State.mayInterrupt { s with env := es } cls = s.mayInterrupt cls := rfl
    rw [applyEvent, State.externalInterrupt, hfilter]
    cases s.mayInterrupt cls <;> rfl

/-- Settles O37: the report of R138 for each setting of NE and IGNNE#. -/
theorem x87ErrorsAreReportedByNe : Obligations.X87ErrorsAreReportedByNe := by
  intro s es
  refine ⟨fun henv => ⟨fun hne => ?_, fun hne hignne => ?_, fun hne hignne => ?_⟩, fun henv => step_of_env_event henv⟩
  · have hreport : State.x87Reporting { s with env := es } = .native := if_pos hne
    simp [step_of_env_event henv, applyEvent, State.x87Error, hreport]
  · have hreport : State.x87Reporting { s with env := es } = .ignored :=
      (if_neg (Bool.eq_false_iff.mp hne)).trans (if_pos hignne)
    simp [step_of_env_event henv, applyEvent, State.x87Error, hreport]
  · have hreport : State.x87Reporting { s with env := es } = .pcStyle :=
      (if_neg (Bool.eq_false_iff.mp hne)).trans (if_neg (Bool.eq_false_iff.mp hignne))
    simp [step_of_env_event henv, applyEvent, State.x87Error, hreport]

/-- Settles O40: each of these events is an update of one field. -/
theorem inputEventsChangeOneInput : Obligations.InputEventsChangeOneInput :=
  fun _ _ _ _ => ⟨step_of_env_event, step_of_env_event, step_of_env_event, step_of_env_event, step_of_env_event⟩

/-! ### Alignment checking and the base CR3 designates -/

/-- Settles O48: not real-address mode means one of the four others. -/
theorem alignmentCheckingCondition : Obligations.AlignmentCheckingCondition := by
  intro s
  have hmode : s.mode ≠ .real ↔ s.mode = .prot32 ∨ s.mode = .v86 ∨ s.mode = .compat ∨ s.mode = .long64 := by
    cases s.mode <;> decide
  rw [← hmode]
  simp only [State.alignmentCheckingOn, Bool.and_eq_true, beq_iff_eq, bne_iff_ne, and_assoc]
  rfl

/-- A field of `n` bits from bit 12 on, put back over twelve zeros. -/
theorem toNat_field_shiftLeft_12 (v : Word) {n : Nat} (hn : n ≤ 52) :
    ((v.extractLsb' 12 n).setWidth 64 <<< 12).toNat = v.toNat / 4096 % 2 ^ n * 4096 := by
  have hlt : v.toNat / 4096 % 2 ^ n < 2 ^ 52 :=
    Nat.lt_of_lt_of_le (Nat.mod_lt _ (Nat.two_pow_pos n)) (Nat.pow_le_pow_right (by decide) hn)
  rw [BitVec.toNat_shiftLeft, BitVec.toNat_setWidth, BitVec.extractLsb'_toNat, Nat.shiftRight_eq_div_pow,
    Nat.shiftLeft_eq, show (2 : Nat) ^ 12 = 4096 from rfl]
  generalize v.toNat / 4096 % 2 ^ n = field at hlt ⊢
  omega

/-- Settles O50: the base is one of two such fields. -/
theorem pageDirectoryBaseIsAligned : Obligations.PageDirectoryBaseIsAligned := by
  intro m v
  have hlong : (pdBase .long64 v).toNat = v.toNat / 4096 % 2 ^ 28 * 4096 := toNat_field_shiftLeft_12 v (by decide)
  have hshort : m ≠ .long64 → (pdBase m v).toNat = v.toNat / 4096 % 2 ^ 20 * 4096 := fun hm => by
    rw [pdBase, if_neg hm]; exact toNat_field_shiftLeft_12 v (by decide)
  refine ⟨?_, hlong, hshort⟩
  by_cases hm : m = .long64
  · rw [hm, hlong]; exact Nat.mul_mod_left _ _
  · rw [hshort hm]; exact Nat.mul_mod_left _ _

/-! ### Little-endian memory -/

@[simp] theorem littleEndian_length (v n : Nat) : (littleEndian v n).length = n := by
  induction n generalizing v with
  | zero => rfl
  | succ n ih => rw [littleEndian, List.length_cons, ih]

/-- The `k`-th byte stored is bits 8k+7:8k of the value (R61). -/
theorem littleEndian_getElem (v n k : Nat) (hk : k < (littleEndian v n).length) :
    (littleEndian v n)[k] = BitVec.ofNat 8 (v / 256 ^ k) := by
  induction n generalizing v k with
  | zero => exact absurd hk (Nat.not_lt_zero k)
  | succ n ih =>
    cases k with
    | zero => rw [Nat.pow_zero, Nat.div_one]; rfl
    | succ k =>
      have hk' : k < (littleEndian (v / 256) n).length := Nat.lt_of_succ_lt_succ hk
      exact (ih (v / 256) k hk').trans (by rw [Nat.div_div_eq_div_mul, ← Nat.pow_succ'])

/-- Reading bytes that are the little-endian digits of a value gives the value back, as far as they reach. -/
theorem memRead_of_digits {m : List Host.Cell} (n a v : Nat)
    (h : ∀ k, k < n → Memory.read1 m (a + k) = some (BitVec.ofNat 8 (v / 256 ^ k))) : memRead m a n = some (v % 256 ^ n) := by
  induction n generalizing a v with
  | zero => rw [memRead, Nat.pow_zero, Nat.mod_one]
  | succ n ih =>
    have hfirst : Memory.read1 m a = some (BitVec.ofNat 8 v) := by
      simpa using h 0 (Nat.succ_pos n)
    have hrest : memRead m (a + 1) n = some (v / 256 % 256 ^ n) := ih (a + 1) (v / 256) fun k hk => by
      rw [Nat.add_right_comm, Nat.div_div_eq_div_mul, ← Nat.pow_succ']
      exact h (k + 1) (Nat.succ_lt_succ hk)
    have hsplit : v % 256 ^ (n + 1) = v % 256 + 256 * (v / 256 % 256 ^ n) := by
      rw [Nat.pow_succ', Nat.mod_mul]
    rw [memRead, hfirst, hrest, hsplit]
    rfl

/-- Settles O51: the bytes of the write are the digits of the value. -/
theorem storeThenLoadIsLittleEndian : Obligations.StoreThenLoadIsLittleEndian := by
  intro m a n v hn
  have hbytes : ∀ k, k < n → Memory.read1 (memWrite m a n v) (a + k) = some (BitVec.ofNat 8 (v / 256 ^ k)) := by
    intro k hk
    have hk' : k < (littleEndian v n).length := by rwa [littleEndian_length]
    rw [memWrite, Memory.read1_writeBytes_inside _ m a k hk' (by rwa [littleEndian_length]), littleEndian_getElem]
  refine ⟨memRead_of_digits n a v hbytes, hbytes, fun b hb => ?_⟩
  exact Memory.read1_writeBytes_outside _ m a b (by rwa [littleEndian_length])

end Sys2Proof.Machine
end
